-- ==== Sys2Proof/Word.lean ====
section
/-! DEFINITION. The word types of the Azold Z8 (spec/00_scope.md R4, spec/05_general_registers.md R114). -/

namespace Sys2Proof

/-- A general register or a 64-bit status register (R114, R117). -/
abbrev Word := BitVec 64

/-- One byte, the smallest addressable unit (R4). -/
abbrev Byte := BitVec 8

/-- A five-bit register number as an instruction names it (R49). -/
abbrev Reg := BitVec 5

/-- A four-kilobyte page holds this many bytes (R361). -/
def pageBytes : Nat := 4096

end Sys2Proof
end

