-- ==== Sys2Proof/Config.lean ====
section
/-! DEFINITION. What the spec leaves open: free values, each an opaque constant with no body, and the
fixed numbers of the one part the spec describes (spec/00_scope.md R2, spec/01_azold_z8.md R13 to R25). -/

namespace Sys2Proof.Config

/-- FREE VALUE: how many thread cycles may pass in the step numbered by the counter (log entry 12). -/
opaque elapsed : Nat → Nat

/-- FREE VALUE: the key that orders the update of element `e` of an unordered vector atomic (R379, log entry 6). -/
opaque amoKey : Nat → Nat → Nat

/-- FREE VALUE: the bytes of an SPDM response whose contents the spec leaves to DMTF DSP0274 (R469, log entry 7). -/
opaque spdmByte : Nat → Nat → BitVec 8

/-- FREE VALUE: whether the signature of a firmware image verifies against the fuses (R468, log entry 8). -/
opaque imageVerifies : List (BitVec 8) → Bool

/-- FREE VALUE: the 64-bit version that a firmware image carries (R468, log entry 8). -/
opaque imageVersion : List (BitVec 8) → BitVec 64

/-- FREE VALUE: the digest of a firmware image; the spec names no algorithm (R469, log entry 7). -/
opaque firmwareDigest : List (BitVec 8) → List (BitVec 8)

/-- FREE VALUE: the latency in nanoseconds of the Fuond hops between two packages, as their ports measured it when the links trained, for a
plan loaded in the step numbered by the counter (R418, log entry 9). -/
opaque hopLatency : Nat → BitVec 16 → BitVec 16 → BitVec 32

/-- FREE VALUE: the same from a package to the apex of such a plan with a member on another package (R418, log entry 9). -/
opaque apexLatency : Nat → BitVec 16 → BitVec 32

/-- FREE VALUE: whether the hops of a plan still have the slots that it reserves (R418, R464, log entry 9). -/
opaque hopsHaveSlots : Nat → Bool

/-- FREE VALUE: where the search for an unused launch identifier begins (R147, log entry 26). -/
opaque launchId : Nat → BitVec 32

/-- FREE VALUE: where the search for an unused plan handle begins (R464, log entry 26). -/
opaque planHandle : Nat → BitVec 32

/-- FREE VALUE: which of the cached entries that cover a page the accesses of a step use; the walk where there is no such one (R371,
log entry 13). -/
opaque cachedPte : Nat → Nat → Nat

/-- FREE VALUE: which of the copies of a word of code a fetch uses; memory where there is no such one (R388, log entry 13). -/
opaque codeCopy : Nat → Nat → Nat

/-- The identification word of stepping B1 (R2). -/
def idWord : BitVec 32 := 0x0A288218#32

/-- Thread slots of a facet, clusters, facets, banks, and the totals that follow (R13 to R15). -/
def slotsPerFacet : Nat := 4
def facets : Nat := 4096
def clusters : Nat := 256
def facetsPerCluster : Nat := 16

end Sys2Proof.Config
end

