-- ==== Sys2Proof/Machine/Bits.lean ====
section
/-! DEFINITION. Bit fields, sign extension, byte order and the integer helpers every family uses
(spec/04_number_formats.md R86, R87, R94; spec/00_scope.md R4). -/

namespace Sys2Proof.Machine

/-- Bits `[lo + n - 1 : lo]` of `w`. -/
def fld (w lo n : Nat) : Nat := w / 2 ^ lo % 2 ^ n

/-- Bit `i` of `w`. -/
def bitAt (w i : Nat) : Bool := w / 2 ^ i % 2 == 1

/-- The low `n` bits of `w` read as two's complement. -/
def toSigned (n w : Nat) : Int :=
  let v := w % 2 ^ n
  if 2 * v < 2 ^ n then Int.ofNat v else Int.ofNat v - Int.ofNat (2 ^ n)

/-- `v` modulo `2 ^ n`, as a pattern of `n` bits (R86). -/
def wrapTo (n : Nat) (v : Int) : Nat := (v % Int.ofNat (2 ^ n)).toNat

/-- The signed or unsigned reading of an `n`-bit pattern. -/
def readInt (signed : Bool) (n w : Nat) : Int :=
  if signed then toSigned n w else Int.ofNat (w % 2 ^ n)

/-- Least and greatest value of an `n`-bit integer type (R87). -/
def intMin (signed : Bool) (n : Nat) : Int := if signed then - Int.ofNat (2 ^ (n - 1)) else 0
def intMax (signed : Bool) (n : Nat) : Int :=
  if signed then Int.ofNat (2 ^ (n - 1)) - 1 else Int.ofNat (2 ^ n) - 1

/-- Clamp `v` to the type, and whether the clamp changed it (R87). -/
def saturate (signed : Bool) (n : Nat) (v : Int) : Int × Bool :=
  if v < intMin signed n then (intMin signed n, true)
  else if intMax signed n < v then (intMax signed n, true)
  else (v, false)

/-- A word sign-extended from its low `n` bits. -/
def sextWord (n w : Nat) : BitVec 64 := BitVec.ofInt 64 (toSigned n w)

/-- A word zero-extended from its low `n` bits. -/
def zextWord (n w : Nat) : BitVec 64 := BitVec.ofNat 64 (w % 2 ^ n)

/-- The little-endian bytes of the low `n` bytes of `w` (R4). -/
def bytesLE : Nat → Nat → List (BitVec 8)
  | 0, _ => []
  | n + 1, w => BitVec.ofNat 8 (w % 256) :: bytesLE n (w / 256)

/-- The number that little-endian bytes hold (R4). -/
def ofBytesLE : List (BitVec 8) → Nat
  | [] => 0
  | b :: bs => b.toNat + 256 * ofBytesLE bs

/-- Number of one bits among the low `n` bits. -/
def popCount : Nat → Nat → Nat
  | 0, _ => 0
  | n + 1, w => w % 2 + popCount n (w / 2)

/-- Number of leading zero bits of an `n`-bit pattern; `n` for zero (R120). -/
def countLeadingZeros (n w : Nat) : Nat :=
  let v := w % 2 ^ n
  if v = 0 then n else n - 1 - Nat.log2 v

/-- Number of trailing zero bits among the low `n` bits; `n` for zero (R120). -/
def countTrailingZeros : Nat → Nat → Nat
  | 0, _ => 0
  | n + 1, w => if w % 2 = 1 then 0 else 1 + countTrailingZeros n (w / 2)

/-- Fixed-point rounding modes of XRM.MODE (R96). -/
inductive XMode where
  | rnu | rne | rdn | rod
  deriving DecidableEq, Repr

def XMode.ofCode (n : Nat) : XMode :=
  if n % 4 = 0 then .rnu else if n % 4 = 1 then .rne else if n % 4 = 2 then .rdn else .rod

/-- The increment of `roundoff` for a right shift of `v` by `d` bits (R94). -/
def roundoffInc (v : Int) (d : Nat) (m : XMode) : Int :=
  if d = 0 then 0 else
  let low := (v % Int.ofNat (2 ^ d)).toNat
  let half := 2 ^ (d - 1)
  let odd := (v / Int.ofNat (2 ^ d)) % 2 = 1
  match m with
  | .rnu => if half ≤ low then 1 else 0
  | .rne => if half < low ∨ (low = half ∧ odd) then 1 else 0
  | .rdn => 0
  | .rod => if ¬ odd ∧ low ≠ 0 then 1 else 0

/-- `roundoff` of R94: the arithmetic shift of `v` by `d` bits plus the mode's increment. -/
def roundoff (v : Int) (d : Nat) (m : XMode) : Int :=
  v / Int.ofNat (2 ^ d) + roundoffInc v d m

/-- Truncated quotient and remainder of R121 on exact integers; the caller handles a zero divisor. -/
def truncDiv (a b : Int) : Int := Int.tdiv a b
def truncMod (a b : Int) : Int := Int.tmod a b

end Sys2Proof.Machine
end

