-- ==== Sys2Proof/Syntax.lean ====
section
/-! DEFINITION. The instructions of the Azold Z8: one constructor of `Instr` per row of the opcode table
(spec/03_encoding.md), with the operand records that the vector function layouts share. -/

namespace Sys2Proof

/-- The payload H of an EXT prefix word, or none (R68, R71). -/
abbrev Ext := Option (BitVec 24)

/-- The prefix word of a queued or CTL instruction (R68). -/
inductive Pre where
  | none
  | mod (mb ma : BitVec 12)
  | hireg (msel : BitVec 3) (ch bh ah dh : Bool) (t8 : BitVec 8)
  | tokmod (mb : BitVec 12) (msel : BitVec 3) (t8 : BitVec 8)
  | tile (tx : BitVec 16) (t8 : BitVec 8)
  | scale (g : BitVec 5)
  deriving DecidableEq, Repr

/-- Operands of the V layout (R52). -/
structure VOps where
  pre : Pre
  e : BitVec 3
  vm : Bool
  c : Bool
  b : Reg
  a : Reg
  d : Reg
  deriving DecidableEq, Repr

/-- Operands of the VM layout (R52). -/
structure MOps where
  pre : Pre
  f : BitVec 4
  vm : Bool
  c : Bool
  b : Reg
  a : Reg
  d : Reg
  deriving DecidableEq, Repr

/-- Operands of the X layout (R52). -/
structure XOps where
  pre : Pre
  q : BitVec 4
  c : Bool
  b : Reg
  a : Reg
  d : Reg
  deriving DecidableEq, Repr

/-- Operands of the K layout (R52, R65). -/
structure KOps where
  pre : Pre
  t : BitVec 3
  opr : BitVec 2
  kind : BitVec 3
  c : Bool
  b : Reg
  a : Reg
  d : Reg
  deriving DecidableEq, Repr

/-- A command record of the management port (R462, R470). -/
structure MgmtRec where
  seq : BitVec 64
  op : BitVec 32
  arg0 : BitVec 64
  arg1 : BitVec 64
  arg2 : BitVec 64
  /-- every reserved byte of the record is zero -/
  clean : Bool
  deriving DecidableEq, Repr

/-- The channel a management command arrives on; one of the management port carries its record (R462, R470). -/
inductive Channel where
  | host | supervisor
  | management (r : MgmtRec)
  deriving DecidableEq, Repr

/-- The wire that carries an SPDM request (R469). -/
inductive SpdmPort where
  | doe | management
  deriving DecidableEq, Repr

/-- The group and the path of a collective: members that differ in one of these never exchange chunks (R426). -/
structure CollKey where
  part : Nat
  comm : BitVec 64
  vc : BitVec 3
  plan : BitVec 32
  deriving DecidableEq, Repr

/-- What a member's chunks carry: its raw elements, or the limb strings of a subtree of members (R425). -/
inductive CollData where
  | raw (elems : List Nat)
  | sums (strings : List (List (BitVec 8)))
  deriving DecidableEq, Repr

/-- The chunks of the members `ranks` for one collective (R424 to R426). -/
structure CollChunk where
  key : CollKey
  ranks : List Nat
  seq : BitVec 32
  cs : BitVec 32
  frm : BitVec 3
  seed : BitVec 64
  data : CollData
  deriving DecidableEq, Repr

/-- A member's report of its signature checks to the apex (R426). -/
structure ConfirmReport where
  key : CollKey
  seq : BitVec 32
  rank : Nat
  matched : Bool
  deriving DecidableEq, Repr

/-- A message: header and elements (R430). -/
structure Message where
  key : CollKey
  src : BitVec 32
  dst : BitVec 32
  tag : BitVec 16
  mseq : BitVec 32
  f : BitVec 4
  vl : BitVec 14
  data : List Nat
  deriving DecidableEq, Repr

/-- Where an error is met: by the instruction of the control thread, at an element or set index of the queue entry in hand, or by an outstanding
tile move at its present position. -/
inductive ErrSite where
  | control
  | entry (k : Nat)
  | move (id : Nat)
  deriving DecidableEq, Repr

/-- A register whose stored contents could not be corrected (R454). -/
inductive ErrReg where
  | vector (r : BitVec 6)
  | mask (r : BitVec 3)
  | tile (r : BitVec 2)
  | queue (r : BitVec 3)
  | codebook (r : BitVec 2)
  deriving DecidableEq, Repr

/-- An error that a protected structure detects (R452, R453). -/
inductive StorageFault where
  /-- corrected in place, or a retry succeeded: a soft error of a facet -/
  | soft (facet : Nat)
  /-- an element of the tile of a handle, after its retries failed -/
  | tile (t : Nat) (h : Nat) (i j : BitVec 5)
  /-- a memory access at an address, after its retries failed -/
  | memory (t : Nat) (site : ErrSite) (addr : BitVec 64) (acc : BitVec 2)
  /-- poison or a link error met by a page-table read of an access to an address (R363) -/
  | walk (t : Nat) (site : ErrSite) (addr : BitVec 64) (acc : BitVec 2)
  /-- a structure of the facet by its code of R453, 2 to 10, with the registers of the facet's threads that it cannot correct -/
  | part (t : Nat) (site : ErrSite) (code : BitVec 4) (lost : List (Nat × ErrReg))
  deriving DecidableEq, Repr

/-- What the PTP port is, of the choices of R433: its role, its delay mechanism, one-step or two-step messages, its transport. -/
inductive PtpRole where
  | receiver | transmitter
  deriving DecidableEq, Repr
inductive PtpDelay where
  | requestResponse | peerToPeer
  deriving DecidableEq, Repr
inductive PtpSteps where
  | one | two
  deriving DecidableEq, Repr
inductive PtpTransport where
  | ethernet | udp4 | udp6
  deriving DecidableEq, Repr

/-- A PTP message, with the timestamps it carries in nanoseconds since the PTP epoch (R433). -/
inductive PtpBody where
  /-- Sync: its origin; of a two-step Sync none, which its Follow_Up brings -/
  | sync (origin : Option (BitVec 64))
  | followUp (origin : BitVec 64)
  | delayReq
  /-- the receipt of the delay request at the other end -/
  | delayResp (receipt : BitVec 64)
  | pdelayReq
  /-- the receipt of the request, and the time between it and the answer's departure; of a two-step answer none -/
  | pdelayResp (receipt : BitVec 64) (turnaround : Option (BitVec 64))
  | pdelayRespFollowUp (origin : BitVec 64)
  deriving DecidableEq, Repr

/-- A PTP message at the port, and whether the servo holds lock after it (R433). -/
structure PtpMessage where
  body : PtpBody
  transport : PtpTransport
  locked : Bool
  deriving DecidableEq, Repr

/-- What power-on finds: the expanders' enumerated capacities, the HDM decoder's base and the PTP port's setting (R356, R433, R467,
R468). -/
structure BootInfo where
  caps : List (BitVec 64)
  hdm : BitVec 64
  role : PtpRole
  delay : PtpDelay
  steps : PtpSteps
  transport : PtpTransport
  deriving DecidableEq, Repr

/-- One constructor per row of the opcode table: 370 encoded instructions and 80 events and commands. -/
inductive Instr where
  | add (b : BitVec 5) (a : BitVec 5) (d : BitVec 5)
  | sub (b : BitVec 5) (a : BitVec 5) (d : BitVec 5)
  | mul (b : BitVec 5) (a : BitVec 5) (d : BitVec 5)
  | mulh (b : BitVec 5) (a : BitVec 5) (d : BitVec 5)
  | mulhw (b : BitVec 5) (a : BitVec 5) (d : BitVec 5)
  | div (b : BitVec 5) (a : BitVec 5) (d : BitVec 5)
  | divw (b : BitVec 5) (a : BitVec 5) (d : BitVec 5)
  | rem (b : BitVec 5) (a : BitVec 5) (d : BitVec 5)
  | remw (b : BitVec 5) (a : BitVec 5) (d : BitVec 5)
  | and (b : BitVec 5) (a : BitVec 5) (d : BitVec 5)
  | or (b : BitVec 5) (a : BitVec 5) (d : BitVec 5)
  | xor (b : BitVec 5) (a : BitVec 5) (d : BitVec 5)
  | shl (b : BitVec 5) (a : BitVec 5) (d : BitVec 5)
  | shr (b : BitVec 5) (a : BitVec 5) (d : BitVec 5)
  | sar (b : BitVec 5) (a : BitVec 5) (d : BitVec 5)
  | slt (b : BitVec 5) (a : BitVec 5) (d : BitVec 5)
  | sltw (b : BitVec 5) (a : BitVec 5) (d : BitVec 5)
  | min (b : BitVec 5) (a : BitVec 5) (d : BitVec 5)
  | max (b : BitVec 5) (a : BitVec 5) (d : BitVec 5)
  | minw (b : BitVec 5) (a : BitVec 5) (d : BitVec 5)
  | maxw (b : BitVec 5) (a : BitVec 5) (d : BitVec 5)
  | clz (a : BitVec 5) (d : BitVec 5)
  | ctz (a : BitVec 5) (d : BitVec 5)
  | popc (a : BitVec 5) (d : BitVec 5)
  | addi (x : Ext) (i : BitVec 14) (a : BitVec 5) (d : BitVec 5)
  | andi (x : Ext) (i : BitVec 14) (a : BitVec 5) (d : BitVec 5)
  | ori (x : Ext) (i : BitVec 14) (a : BitVec 5) (d : BitVec 5)
  | xori (x : Ext) (i : BitVec 14) (a : BitVec 5) (d : BitVec 5)
  | slti (x : Ext) (i : BitVec 14) (a : BitVec 5) (d : BitVec 5)
  | shli (n : BitVec 6) (a : BitVec 5) (d : BitVec 5)
  | shri (n : BitVec 6) (a : BitVec 5) (d : BitVec 5)
  | sari (n : BitVec 6) (a : BitVec 5) (d : BitVec 5)
  | lui (x : Ext) (i : BitVec 19) (d : BitVec 5)
  | addpc (x : Ext) (i : BitVec 19) (d : BitVec 5)
  | ld (x : Ext) (i : BitVec 11) (w : BitVec 3) (a : BitVec 5) (d : BitVec 5)
  | st (x : Ext) (i : BitVec 6) (w : BitVec 3) (b : BitVec 5) (a : BitVec 5) (j : BitVec 5)
  | ldAcq (s : BitVec 3) (w : BitVec 3) (a : BitVec 5) (d : BitVec 5)
  | stRel (s : BitVec 3) (w : BitVec 3) (b : BitVec 5) (a : BitVec 5)
  | amoAdd (f : BitVec 4) (b : BitVec 5) (a : BitVec 5) (d : BitVec 5)
  | amoMin (f : BitVec 4) (b : BitVec 5) (a : BitVec 5) (d : BitVec 5)
  | amoMax (f : BitVec 4) (b : BitVec 5) (a : BitVec 5) (d : BitVec 5)
  | amoAnd (f : BitVec 4) (b : BitVec 5) (a : BitVec 5) (d : BitVec 5)
  | amoOr (f : BitVec 4) (b : BitVec 5) (a : BitVec 5) (d : BitVec 5)
  | amoXor (f : BitVec 4) (b : BitVec 5) (a : BitVec 5) (d : BitVec 5)
  | amoSwap (f : BitVec 4) (b : BitVec 5) (a : BitVec 5) (d : BitVec 5)
  | amoCas (f : BitVec 4) (b : BitVec 5) (a : BitVec 5) (d : BitVec 5)
  | amox (f : BitVec 4) (b : BitVec 5) (a : BitVec 5)
  | amoReply (t : Nat)
  | beq (x : Ext) (i : BitVec 9) (b : BitVec 5) (a : BitVec 5) (j : BitVec 5)
  | bne (x : Ext) (i : BitVec 9) (b : BitVec 5) (a : BitVec 5) (j : BitVec 5)
  | blt (x : Ext) (i : BitVec 9) (b : BitVec 5) (a : BitVec 5) (j : BitVec 5)
  | bge (x : Ext) (i : BitVec 9) (b : BitVec 5) (a : BitVec 5) (j : BitVec 5)
  | bltw (x : Ext) (i : BitVec 9) (b : BitVec 5) (a : BitVec 5) (j : BitVec 5)
  | bgew (x : Ext) (i : BitVec 9) (b : BitVec 5) (a : BitVec 5) (j : BitVec 5)
  | jal (x : Ext) (i : BitVec 19) (d : BitVec 5)
  | jalr (x : Ext) (i : BitVec 14) (a : BitVec 5) (d : BitVec 5)
  | loopn (s : BitVec 4) (b : BitVec 5) (a : BitVec 5) (d : BitVec 5)
  | fadd (r : BitVec 3) (b : BitVec 5) (a : BitVec 5) (d : BitVec 5)
  | fsub (r : BitVec 3) (b : BitVec 5) (a : BitVec 5) (d : BitVec 5)
  | fmul (r : BitVec 3) (b : BitVec 5) (a : BitVec 5) (d : BitVec 5)
  | fdiv (r : BitVec 3) (b : BitVec 5) (a : BitVec 5) (d : BitVec 5)
  | fsqrt (r : BitVec 3) (a : BitVec 5) (d : BitVec 5)
  | fmin (b : BitVec 5) (a : BitVec 5) (d : BitVec 5)
  | fmax (b : BitVec 5) (a : BitVec 5) (d : BitVec 5)
  | fcmp (c : BitVec 3) (b : BitVec 5) (a : BitVec 5) (d : BitVec 5)
  | fcvt (r : BitVec 3) (b : BitVec 5) (a : BitVec 5) (d : BitVec 5)
  | fclass (a : BitVec 5) (d : BitVec 5)
  | fma (c : BitVec 5) (b : BitVec 5) (a : BitVec 5) (d : BitVec 5)
  | mfs (b : BitVec 5) (d : BitVec 5)
  | mts (b : BitVec 5) (a : BitVec 5)
  | mtsFrm (a : BitVec 5)
  | mtsFflags (a : BitVec 5)
  | mtsSat (a : BitVec 5)
  | mtsEfc (a : BitVec 5)
  | mtsTstat (a : BitVec 5)
  | mtsPrio (a : BitVec 5)
  | mtsWshare (a : BitVec 5)
  | mtsAspace (a : BitVec 5)
  | mtsIshape (a : BitVec 5)
  | trap (b : BitVec 5)
  | eret
  | halt
  | fence (s : BitVec 3)
  | fenceComplete (t : Nat)
  | iflush (b : BitVec 5) (a : BitVec 5)
  | isync
  | isyncComplete (t : Nat)
  | tlbinv (b : BitVec 5) (a : BitVec 5)
  | tlbinvA (a : BitVec 5)
  | tlbinvComplete (t : Nat)
  | spawn (a : BitVec 5) (d : BitVec 5)
  | exit
  | join (a : BitVec 5) (d : BitVec 5)
  | leave (a : BitVec 5) (d : BitVec 5)
  | barg (a : BitVec 5) (d : BitVec 5)
  | staggeredRelease (t : Nat)
  | yield (a : BitVec 5) (d : BitVec 5)
  | wpush (a : BitVec 5) (d : BitVec 5)
  | wpop (d : BitVec 5)
  | wsteal (a : BitVec 5) (d : BitVec 5)
  | claim (b : BitVec 5) (a : BitVec 5) (d : BitVec 5)
  | waitw (s : BitVec 3) (b : BitVec 5) (a : BitVec 5) (d : BitVec 5)
  | waitwWake (t : Nat)
  | waitt (a : BitVec 5) (d : BitVec 5)
  | waittWake (t : Nat)
  | vcfg (b : BitVec 5) (a : BitVec 5) (d : BitVec 5)
  | vcfgVl (d : BitVec 5)
  | vcfgVtype (d : BitVec 5)
  | vcfgVlmax (d : BitVec 5)
  | vcfgVcp (d : BitVec 5)
  | vcfgVstart (d : BitVec 5)
  | vcfgRlen (d : BitVec 5)
  | vcfgi (x : Ext) (i : BitVec 6) (a : BitVec 5) (d : BitVec 5)
  | sbind (p : Pre) (n : BitVec 3) (a : BitVec 5) (d : BitVec 5)
  | sbindQGeneral (p : Pre) (n : BitVec 3) (d : BitVec 5)
  | sbindQVector (p : Pre) (n : BitVec 3) (d : BitVec 5)
  | sunbind (p : Pre) (n : BitVec 3) (d : BitVec 5)
  | sunbindQ (p : Pre) (n : BitVec 3) (d : BitVec 5)
  | sskip (p : Pre) (n : BitVec 3) (a : BitVec 5)
  | spos (p : Pre) (n : BitVec 3) (d : BitVec 5)
  | stbar (p : Pre) (s : BitVec 4)
  | stbarComplete (t : Nat)
  | waitc (p : Pre) (a : BitVec 5) (d : BitVec 5)
  | waitcWake (t : Nat)
  | bset (p : Pre) (b : BitVec 5) (a : BitVec 5) (d : BitVec 5)
  | tcfg (p : Pre) (b : BitVec 5) (a : BitVec 5)
  | chwait (p : Pre) (d : BitVec 5)
  | chwaitWake (t : Nat)
  | nset (p : Pre) (a : BitVec 5) (d : BitVec 5)
  | nsetF (p : Pre) (b : BitVec 5) (a : BitVec 5) (d : BitVec 5)
  | nsig (p : Pre) (a : BitVec 5) (d : BitVec 5)
  | nsigRank (p : Pre) (a : BitVec 5) (d : BitVec 5)
  | nsigCount (p : Pre) (a : BitVec 5) (d : BitVec 5)
  | nsigSeq (p : Pre) (a : BitVec 5) (d : BitVec 5)
  | tmapset (a : BitVec 5) (d : BitVec 5)
  | tfetch (a : BitVec 5) (d : BitVec 5)
  | tevict (a : BitVec 5) (d : BitVec 5)
  | tlog (s : BitVec 4) (b : BitVec 5) (a : BitVec 5) (d : BitVec 5)
  | tcompact (a : BitVec 5) (d : BitVec 5)
  | tstat (a : BitVec 5) (d : BitVec 5)
  | vpubl (a : BitVec 5) (d : BitVec 5)
  | vpublWait (a : BitVec 5) (d : BitVec 5)
  | vpublAt (b : BitVec 5) (a : BitVec 5) (d : BitVec 5)
  | vpublWaitAt (b : BitVec 5) (a : BitVec 5) (d : BitVec 5)
  | vpublWaitResume (t : Nat)
  | toksw (a : BitVec 5) (d : BitVec 5)
  | tokswMin (b : BitVec 5) (a : BitVec 5) (d : BitVec 5)
  | tokswMinResume (t : Nat)
  | versionPinRelease (part : Nat) (n : Nat)
  | sttok (b : BitVec 5) (a : BitVec 5)
  | vpin (a : BitVec 5) (d : BitVec 5)
  | vunpin (a : BitVec 5) (d : BitVec 5)
  | hint (x : BitVec 24)
  | cHint (x : BitVec 5)
  | cAddi (x : BitVec 5) (d : BitVec 5)
  | cAdd (x : BitVec 5) (d : BitVec 5)
  | cSub (x : BitVec 5) (d : BitVec 5)
  | cAnd (x : BitVec 5) (d : BitVec 5)
  | cOr (x : BitVec 5) (d : BitVec 5)
  | cXor (x : BitVec 5) (d : BitVec 5)
  | cShli (x : BitVec 5) (d : BitVec 5)
  | cShri (x : BitVec 5) (d : BitVec 5)
  | cSari (x : BitVec 5) (d : BitVec 5)
  | cLdI64 (x : BitVec 5) (d : BitVec 5)
  | cStI64 (x : BitVec 5) (d : BitVec 5)
  | cBeq (x : BitVec 5) (d : BitVec 5)
  | cBne (x : BitVec 5) (d : BitVec 5)
  | cJr (d : BitVec 5)
  | cJalr (d : BitVec 5)
  | cMv (x : BitVec 5) (d : BitVec 5)
  | cvVaddI32 (b : BitVec 5) (d : BitVec 5)
  | cvVsubI32 (b : BitVec 5) (d : BitVec 5)
  | cvVmulI32 (b : BitVec 5) (d : BitVec 5)
  | cvVmaccI32 (b : BitVec 5) (d : BitVec 5)
  | cvVmaxI32 (b : BitVec 5) (d : BitVec 5)
  | cvVxorI32 (b : BitVec 5) (d : BitVec 5)
  | cvVfaddF32 (b : BitVec 5) (d : BitVec 5)
  | cvVfmulF32 (b : BitVec 5) (d : BitVec 5)
  | cvVfmaF32 (b : BitVec 5) (d : BitVec 5)
  | cvVfmaxF32 (b : BitVec 5) (d : BitVec 5)
  | cvVfaddBf16 (b : BitVec 5) (d : BitVec 5)
  | cvVfmulBf16 (b : BitVec 5) (d : BitVec 5)
  | cvVfmaBf16 (b : BitVec 5) (d : BitVec 5)
  | cvVfmaxBf16 (b : BitVec 5) (d : BitVec 5)
  | vaddVv (o : VOps)
  | vaddVg (o : VOps)
  | vaddVi (o : VOps)
  | vsubVv (o : VOps)
  | vsubVg (o : VOps)
  | vrsubVg (o : VOps)
  | vrsubVi (o : VOps)
  | vmulVv (o : VOps)
  | vmulVg (o : VOps)
  | vmulhVv (o : VOps)
  | vmulhVg (o : VOps)
  | vmaccVv (o : VOps)
  | vmaccVg (o : VOps)
  | vnmsacVv (o : VOps)
  | vnmsacVg (o : VOps)
  | vwaddVv (o : VOps)
  | vwaddVg (o : VOps)
  | vwmulVv (o : VOps)
  | vwmulVg (o : VOps)
  | vwmaccVv (o : VOps)
  | vwmaccVg (o : VOps)
  | vnshrVv (o : VOps)
  | vnshrVg (o : VOps)
  | vnshrVi (o : VOps)
  | vsaddVv (o : VOps)
  | vsaddVg (o : VOps)
  | vsaddVi (o : VOps)
  | vssubVv (o : VOps)
  | vssubVg (o : VOps)
  | vavgVv (o : VOps)
  | vavgVg (o : VOps)
  | vminVv (o : VOps)
  | vminVg (o : VOps)
  | vmaxVv (o : VOps)
  | vmaxVg (o : VOps)
  | vandVv (o : VOps)
  | vandVg (o : VOps)
  | vandVi (o : VOps)
  | vorVv (o : VOps)
  | vorVg (o : VOps)
  | vorVi (o : VOps)
  | vxorVv (o : VOps)
  | vxorVg (o : VOps)
  | vxorVi (o : VOps)
  | vshlVv (o : VOps)
  | vshlVg (o : VOps)
  | vshlVi (o : VOps)
  | vshrVv (o : VOps)
  | vshrVg (o : VOps)
  | vshrVi (o : VOps)
  | vsarVv (o : VOps)
  | vsarVg (o : VOps)
  | vsarVi (o : VOps)
  | vmergeVv (o : VOps)
  | vmergeVg (o : VOps)
  | vmergeVi (o : VOps)
  | vmvVv (o : VOps)
  | vmvVg (o : VOps)
  | vmvVi (o : VOps)
  | vcmpEqVv (o : VOps)
  | vcmpEqVg (o : VOps)
  | vcmpEqVi (o : VOps)
  | vcmpNeVv (o : VOps)
  | vcmpNeVg (o : VOps)
  | vcmpNeVi (o : VOps)
  | vcmpLtVv (o : VOps)
  | vcmpLtVg (o : VOps)
  | vcmpLtVi (o : VOps)
  | vcmpLeVv (o : VOps)
  | vcmpLeVg (o : VOps)
  | vcmpLeVi (o : VOps)
  | vcmpGtVv (o : VOps)
  | vcmpGtVg (o : VOps)
  | vcmpGtVi (o : VOps)
  | vcmpGeVv (o : VOps)
  | vcmpGeVg (o : VOps)
  | vcmpGeVi (o : VOps)
  | vfaddVv (o : VOps)
  | vfaddVg (o : VOps)
  | vfsubVv (o : VOps)
  | vfsubVg (o : VOps)
  | vfmulVv (o : VOps)
  | vfmulVg (o : VOps)
  | vfmaVv (o : VOps)
  | vfmaVg (o : VOps)
  | vfnmaVv (o : VOps)
  | vfnmaVg (o : VOps)
  | vfdivVv (o : VOps)
  | vfdivVg (o : VOps)
  | vfsqrt (o : VOps)
  | vfminVv (o : VOps)
  | vfminVg (o : VOps)
  | vfmaxVv (o : VOps)
  | vfmaxVg (o : VOps)
  | vfcmpEqVv (o : VOps)
  | vfcmpEqVg (o : VOps)
  | vfcmpNeVv (o : VOps)
  | vfcmpNeVg (o : VOps)
  | vfcmpLtVv (o : VOps)
  | vfcmpLtVg (o : VOps)
  | vfcmpLeVv (o : VOps)
  | vfcmpLeVg (o : VOps)
  | vfcmpGtVv (o : VOps)
  | vfcmpGtVg (o : VOps)
  | vfcmpGeVv (o : VOps)
  | vfcmpGeVg (o : VOps)
  | vfcmpUnVv (o : VOps)
  | vfcmpUnVg (o : VOps)
  | mand (o : VOps)
  | mor (o : VOps)
  | mxor (o : VOps)
  | mnot (o : VOps)
  | mpopc (o : VOps)
  | mffs (o : VOps)
  | mset (o : VOps)
  | vreconf (o : VOps)
  | vslideu (o : VOps)
  | vslided (o : VOps)
  | vgather (o : VOps)
  | vcompress (o : VOps)
  | viota (o : VOps)
  | vext (o : VOps)
  | vins (o : VOps)
  | vredsum (o : VOps)
  | vredmax (o : VOps)
  | vredmin (o : VOps)
  | vfredsum (o : VOps)
  | vfredmax (o : VOps)
  | vfredmin (o : VOps)
  | vfredms (o : VOps)
  | vfcvt (o : VOps)
  | vfcvtEf (o : VOps)
  | vrec (o : VOps)
  | vendrec (o : VOps)
  | vreplay (o : VOps)
  | aalloc (o : XOps)
  | aallocWait (o : XOps)
  | aallocWaitBind (facet : Nat)
  | afree (o : XOps)
  | aclr (o : XOps)
  | ldws (o : XOps)
  | swpl (o : XOps)
  | mstream (o : XOps)
  | mopa (o : XOps)
  | mops (o : XOps)
  | axtr (o : XOps)
  | axtc (o : XOps)
  | asave (o : XOps)
  | aload (o : XOps)
  | aaddi (o : XOps)
  | trow (o : XOps)
  | tcol (o : XOps)
  | tld (o : XOps)
  | tst (o : XOps)
  | vld (o : MOps)
  | vlds (o : MOps)
  | vldx (o : MOps)
  | vldseg (o : MOps)
  | vldff (o : MOps)
  | cbld (o : MOps)
  | vfill (o : MOps)
  | vst (o : MOps)
  | vsts (o : MOps)
  | vstx (o : MOps)
  | vstseg (o : MOps)
  | vspill (o : MOps)
  | ldpSum (o : MOps)
  | ldpMax (o : MOps)
  | ldpMin (o : MOps)
  | ldpMaxsum (o : MOps)
  | ldpAnd (o : MOps)
  | ldpOr (o : MOps)
  | ldpXor (o : MOps)
  | ldpFirst (o : MOps)
  | stp (o : MOps)
  | chrun (o : MOps)
  | chordCommandPlace (bank : Nat)
  | chordRunStart (bank : Nat)
  | chordRunEnd (bank : Nat)
  | vamoAdd (o : MOps)
  | vamoMin (o : MOps)
  | vamoMax (o : MOps)
  | vamoAnd (o : MOps)
  | vamoOr (o : MOps)
  | vamoXor (o : MOps)
  | vamoSwap (o : MOps)
  | vamoCas (o : MOps)
  | vamooAdd (o : MOps)
  | vamooMin (o : MOps)
  | vamooMax (o : MOps)
  | vamooAnd (o : MOps)
  | vamooOr (o : MOps)
  | vamooXor (o : MOps)
  | vamooSwap (o : MOps)
  | vamooCas (o : MOps)
  | tmov (o : XOps)
  | tmovComplete (id : Nat)
  | tokp (o : XOps)
  | tokw (o : XOps)
  | vfence (o : XOps)
  | vfenceD (o : XOps)
  | vcoll (o : KOps)
  | collectiveChunkArrival (c : CollChunk)
  | collectiveGo (t : Nat)
  | collectiveAbort (t : Nat)
  | vsend (o : MOps)
  | vrecv (o : MOps)
  | messageArrival (m : Message)
  | endpointChunkSend (facet : Nat)
  | slotFreeNotice (h : Nat)
  | fabricErrorTimeout (t : Nat) (port : BitVec 8)
  | linkFlitRetry (port : Nat)
  | entryStart (t : Nat)
  | entryCommit (t : Nat)
  | vectorQueuePushResume (t : Nat)
  | queueRegisterResume (t : Nat) (q : Nat)
  | streamStripRead (t : Nat) (n : Nat)
  | writeStreamStore (t : Nat)
  | tileLogCompaction (part : Nat) (win : Nat) (tile : Nat)
  | tileArrival (part : Nat) (win : Nat) (tile : Nat)
  | tileLeave (part : Nat) (win : Nat) (tile : Nat)
  | combineDrain (t : Nat)
  | slotPlacement (part : Nat) (slot : Nat)
  | preemption (t : Nat)
  | contextSaveDone (t : Nat)
  | lmaxExpiry (bank : Nat)
  | latticeIdleTimeout (part : Nat)
  | storageErrorDetected (k : StorageFault)
  | hostMemAccess (write : Bool) (addr : BitVec 64) (data : List (BitVec 8))
  | powerOnReset (b : BootInfo)
  | expanderLost (port : BitVec 2)
  | fuondLinkFailed (port : BitVec 4)
  | ptpMessage (m : PtpMessage)
  | ptpLockLost
  | ident (ch : Channel)
  | partset (ch : Channel)
  | lmax (ch : Channel)
  | vtabRegister (ch : Channel)
  | vtabRemove (ch : Channel)
  | planld (ch : Channel)
  | planfr (ch : Channel)
  | slew (ch : Channel)
  | pkgid (ch : Channel)
  | dbgAttach (ch : Channel)
  | dbgDetach (ch : Channel)
  | dbgResume (ch : Channel)
  | dbgSave (ch : Channel)
  | dbgRestore (ch : Channel)
  | status (ch : Channel)
  | fwupd (ch : Channel)
  | softc (ch : Channel)
  | launch (ch : Channel)
  | memcap (ch : Channel)
  | unknownCommand (ch : Channel)
  | getVersion (w : SpdmPort)
  | getCapabilities (w : SpdmPort)
  | negotiateAlgorithms (w : SpdmPort)
  | getDigests (w : SpdmPort)
  | getCertificate (w : SpdmPort)
  | challenge (w : SpdmPort)
  | getMeasurements (w : SpdmPort)
  | securedSession (w : SpdmPort)
  | hdmDecoderWrite (base : BitVec 52)
  | confirmationReportArrival (r : ConfirmReport)
  | linkRetrain (port : BitVec 4)
  | syncInterval (port : BitVec 4)
  deriving DecidableEq, Repr

end Sys2Proof
end

