-- ==== Sys2Proof/Machine/Legal.lean ====
section
/-! DEFINITION. The decode checks of R76: register classes (R51), fields that must be zero (R66), prefix payloads (R67 to R70),
code fields (R54 to R58) and the limits that each instruction's chapter gives. -/

namespace Sys2Proof.Machine
open Sys2Proof

/-- What a five-bit field of an instruction names (R51, R66). -/
inductive Cls where
  | zero | vec | gen | imm | mask | tile | hand | cb | bank | grp | fab
  deriving DecidableEq, Repr

/-- The number lies in the class's range (R51). -/
def Cls.ok (c : Cls) (r : Reg) : Bool :=
  match c with
  | .zero => r == 0
  | .vec | .gen | .imm => true
  | .mask | .bank | .grp => r.toNat < 8
  | .tile | .cb | .fab => r.toNat < 4
  | .hand => r.toNat < 2

/-- Bit 5 of a register number may be set only where the field names a vector register (R68). -/
def Cls.hiOk (c : Cls) (h : Bool) : Bool := !h || c == .vec

/-- The token fields of an instruction of peer `own` (R70, R287). -/
def t8Ok (own : Nat) (t8 : BitVec 8) : Bool :=
  let v := t8.toNat
  let pushq := fld v 5 3
  let waitq := fld v 1 3
  (if bitAt v 4 then pushq < 4 && pushq != own else pushq == 0)
    && (if bitAt v 0 then waitq < 4 && waitq != own else waitq == 0)

/-- A source modifier of R69 within the limits of R196. -/
def modOk (m : BitVec 12) : Bool :=
  let v := m.toNat
  let cls := fld v 9 3
  let size := fld v 6 3
  let dist := fld v 0 6
  if cls = 0 then v == 0
  else if cls = 1 then size == 0 && dist != 0
  else if cls = 2 then dist == 0
  else if cls = 3 then size != 0 && dist < 2 ^ size
  else if cls = 4 then !bitAt v 8
  else false

/-- A modifier may stand only on a vector source of VIA, VIB or VF (R68). -/
def modAt (mods : Bool) (c : Cls) (m : BitVec 12) : Bool := m == 0 || (mods && c == .vec && modOk m)

/-- The payload checks of a prefix on an instruction with a vm bit (R68 to R70): every V-layout major admits a MOD prefix. -/
def prePlain (mods : Bool) (own : Nat) (d a b : Cls) (vm : Bool) (p : Pre) : Bool :=
  match p with
  | .none => true
  | .mod mb ma => modAt mods a ma && modAt mods b mb
  | .hireg ms ch bh ah dh t8 =>
    (vm || ms == 0) && !ch && b.hiOk bh && a.hiOk ah && d.hiOk dh && t8Ok own t8
  | .tokmod mb ms t8 => (vm || ms == 0) && modAt mods b mb && t8Ok own t8
  | .tile _ _ => false
  | .scale _ => false

/-- Bit 5 of D, A and B (R68, R225). -/
def preDh : Pre → Bool
  | .hireg _ _ _ _ dh _ => dh
  | .tile tx _ => bitAt tx.toNat 15
  | _ => false
def preAh : Pre → Bool
  | .hireg _ _ _ ah _ _ => ah
  | .tile tx _ => bitAt tx.toNat 14
  | _ => false
def preBh : Pre → Bool
  | .hireg _ _ bh _ _ _ => bh
  | .tile tx _ => bitAt tx.toNat 13
  | _ => false
/-- The token fields, zero without a prefix that holds them (R70). -/
def preT8 : Pre → BitVec 8
  | .hireg _ _ _ _ _ t8 => t8
  | .tokmod _ _ t8 => t8
  | .tile _ t8 => t8
  | _ => 0
/-- The mask that governs an instruction with vm = 1 (R52, R68). -/
def preMask : Pre → BitVec 3
  | .hireg ms _ _ _ _ _ => ms
  | .tokmod _ ms _ => ms
  | _ => 0
/-- Source modifiers of A and of B (R68). -/
def preMa : Pre → BitVec 12
  | .mod _ ma => ma
  | _ => 0
def preMb : Pre → BitVec 12
  | .mod mb _ => mb
  | .tokmod mb _ _ => mb
  | _ => 0

/-- A six-bit vector register number. -/
def reg6 (h : Bool) (r : Reg) : BitVec 6 := BitVec.ofNat 6 (r.toNat + if h then 32 else 0)

end Sys2Proof.Machine

namespace Sys2Proof
open Machine
def VOps.d6 (o : VOps) : BitVec 6 := reg6 (preDh o.pre) o.d
def VOps.a6 (o : VOps) : BitVec 6 := reg6 (preAh o.pre) o.a
def VOps.b6 (o : VOps) : BitVec 6 := reg6 (preBh o.pre) o.b
def MOps.d6 (o : MOps) : BitVec 6 := reg6 (preDh o.pre) o.d
def MOps.a6 (o : MOps) : BitVec 6 := reg6 (preAh o.pre) o.a
def MOps.b6 (o : MOps) : BitVec 6 := reg6 (preBh o.pre) o.b
def XOps.d6 (o : XOps) : BitVec 6 := reg6 (preDh o.pre) o.d
def XOps.a6 (o : XOps) : BitVec 6 := reg6 (preAh o.pre) o.a
def XOps.b6 (o : XOps) : BitVec 6 := reg6 (preBh o.pre) o.b
def KOps.d6 (o : KOps) : BitVec 6 := reg6 (preDh o.pre) o.d
def KOps.a6 (o : KOps) : BitVec 6 := reg6 (preAh o.pre) o.a
def KOps.b6 (o : KOps) : BitVec 6 := reg6 (preBh o.pre) o.b

/-- Field classes of a V-layout instruction of the vector peer (R188). -/
def VOps.shape (o : VOps) (mods : Bool) (d a b : Cls) : Bool :=
  d.ok o.d && a.ok o.a && b.ok o.b && prePlain mods 0 d a b o.vm o.pre

/-- Whether a SCALE prefix may stand before a form (R68, R270). DEDUCED: `never` is VLDSEG, VSTSEG and CBLD, which R270 names without an
exception for the zero payload of R68 (log entry 20). -/
inductive ScaleUse where
  | yes | zeroOnly | never | no
  deriving DecidableEq, Repr

def scaleOk (u : ScaleUse) (f : BitVec 4) (g : Reg) : Bool :=
  match u with
  | .yes => g == 0 || f == 11 || f == 12 || f == 13
  | .zeroOnly => g == 0
  | .never | .no => false

/-- Field classes of a VM-layout instruction. -/
def MOps.shape (o : MOps) (u : ScaleUse) (own : Nat) (d a b : Cls) : Bool :=
  d.ok o.d && a.ok o.a && b.ok o.b &&
    match o.pre with
    | .scale g => scaleOk u o.f g
    | .mod _ _ => false
    | p => prePlain false own d a b o.vm p

/-- The TX field of a TILE prefix (R225). -/
def txMv (tx : BitVec 16) : Bool := bitAt tx.toNat 12
def txMask (tx : BitVec 16) : Nat := fld tx.toNat 9 3
def txRm (tx : BitVec 16) : Nat := fld tx.toNat 6 3
def txOk (mv rm : Bool) (d a b : Cls) (tx : BitVec 16) : Bool :=
  let v := tx.toNat
  d.hiOk (bitAt v 15) && a.hiOk (bitAt v 14) && b.hiOk (bitAt v 13)
    && (if txMv tx then mv else txMask tx == 0)
    && (if rm then txRm tx != 6 else txRm tx == 0 || txRm tx == 7) && fld v 0 6 == 0

/-- Field classes of an X-layout instruction: `lat` for the majors that a TILE prefix extends. Peer 9 admits no token field. -/
def XOps.shape (o : XOps) (lat mv rm : Bool) (own : Nat) (d a b : Cls) : Bool :=
  d.ok o.d && a.ok o.a && b.ok o.b && (own != 9 || preT8 o.pre == 0) &&
    match o.pre with
    | .tile tx t8 => lat && txOk mv rm d a b tx && t8Ok own t8
    | .mod _ _ => false
    | p => prePlain false own d a b false p

end Sys2Proof

namespace Sys2Proof.Machine

/-- The element types of VF (R55). -/
def fpType (e : BitVec 3) : Bool := e == 1 || e == 2

/-- MSET: modes 0 and 1 require A = 0, modes 2 and 3 require D ≠ A (R207). -/
def msetOk (o : VOps) : Bool :=
  if o.e.toNat < 2 then o.a == 0 else o.e.toNat < 4 && o.d != o.a

/-- The five kinds of LDWS (R231): 0 and 1 read a tile register, 2 and 3 a vector, 4 a vector through a codebook. -/
def ldwsOk (o : XOps) : Bool :=
  if o.q.toNat < 2 then o.a.toNat < 4 && o.b == 0 && !preAh o.pre && !preBh o.pre
  else if o.q.toNat < 4 then o.b == 0 && !preBh o.pre
  else o.q == 4 && o.b.toNat < 4 && !preBh o.pre

/-- TOKP and TOKW: consumer in Q[3:2], producer in Q[1:0] (R292). -/
def tokOk (o : XOps) : Bool := fld o.q.toNat 2 2 != fld o.q.toNat 0 2

/-- LOOPN: levels 1 to 6, and count and index registers that exist (R138). -/
def loopOk (s : BitVec 4) (a d : Reg) : Bool :=
  let n := s.toNat
  1 ≤ n && n ≤ 6 && a.toNat + n - 1 ≤ 31 && (d == 0 || d.toNat + n - 1 ≤ 31)

/-- VCFGI: bits [37:6] of the joined immediate must be zero, the table's field holding bits [5:0] (R178). -/
def extLow6 (x : Ext) : Bool := x == none || x == some 0

/-- A prefix on a CTL instruction: none, or HIREG with only the bit of a vector D set (R68). -/
def ctlPre (p : Pre) (vecD : Bool) : Bool :=
  match p with
  | .none => true
  | .hireg ms ch bh ah dh t8 => ms == 0 && !ch && !bh && !ah && (!dh || vecD) && t8 == 0
  | _ => false

/-- The type codes of atomics: integers of 4 and 8 bytes, and with f32 (R373, R377). -/
def amoInt (f : BitVec 4) : Bool := f == 2 || f == 3 || f == 6 || f == 7
def amoAny (f : BitVec 4) : Bool := amoInt f || f == 9

/-- The pairs of operation and type code of TLOG (R336). -/
def tlogOk (s : BitVec 4) (d : Reg) : Bool :=
  if s = 1 then d == 8 || d == 9
  else if 2 ≤ s.toNat && s.toNat ≤ 6 then d.toNat % 4 < 3 && d.toNat < 8
  else s == 7 && ((d.toNat % 4 < 3 && d.toNat < 8) || d == 8 || d == 9)

/-- The codes of VCOLL (R65). -/
def kLegal (o : KOps) : Bool :=
  o.t.toNat < 6 && o.kind.toNat < 5
    && (if o.kind == 0 || o.kind == 2 then o.opr.toNat < 3 else o.opr == 3)
    && Cls.grp.ok o.b && (match o.pre with
      | .mod _ _ => false
      | p => prePlain false 3 .vec .vec .grp false p)

/-- The checks of R76 that decoding makes on an instruction's fields; an event or command meets them. -/
def legal : Instr → Bool
  | .add _ _ _ => true
  | .sub _ _ _ => true
  | .mul _ _ _ => true
  | .mulh _ _ _ => true
  | .mulhw _ _ _ => true
  | .div _ _ _ => true
  | .divw _ _ _ => true
  | .rem _ _ _ => true
  | .remw _ _ _ => true
  | .and _ _ _ => true
  | .or _ _ _ => true
  | .xor _ _ _ => true
  | .shl _ _ _ => true
  | .shr _ _ _ => true
  | .sar _ _ _ => true
  | .slt _ _ _ => true
  | .sltw _ _ _ => true
  | .min _ _ _ => true
  | .max _ _ _ => true
  | .minw _ _ _ => true
  | .maxw _ _ _ => true
  | .clz _ _ => true
  | .ctz _ _ => true
  | .popc _ _ => true
  | .addi _ _ _ _ => true
  | .andi _ _ _ _ => true
  | .ori _ _ _ _ => true
  | .xori _ _ _ _ => true
  | .slti _ _ _ _ => true
  | .shli _ _ _ => true
  | .shri _ _ _ => true
  | .sari _ _ _ => true
  | .lui _ _ _ => true
  | .addpc _ _ _ => true
  | .ld _ _ w _ _ => w != 7
  | .st _ _ w _ _ _ => w.toNat < 4
  | .ldAcq s w _ _ => s.toNat < 5 && w != 7
  | .stRel s w _ _ => s.toNat < 5 && w.toNat < 4
  | .amoAdd f _ _ _ => amoAny f
  | .amoMin f _ _ _ => amoAny f
  | .amoMax f _ _ _ => amoAny f
  | .amoAnd f _ _ _ => amoInt f
  | .amoOr f _ _ _ => amoInt f
  | .amoXor f _ _ _ => amoInt f
  | .amoSwap f _ _ _ => amoAny f
  | .amoCas f _ _ _ => amoAny f
  | .amox f _ _ => f == 8 || f == 9
  | .amoReply _ => true
  | .beq _ _ _ _ _ => true
  | .bne _ _ _ _ _ => true
  | .blt _ _ _ _ _ => true
  | .bge _ _ _ _ _ => true
  | .bltw _ _ _ _ _ => true
  | .bgew _ _ _ _ _ => true
  | .jal _ _ _ => true
  | .jalr _ _ _ _ => true
  | .loopn s _ a d => loopOk s a d
  | .fadd r _ _ _ => r != 6
  | .fsub r _ _ _ => r != 6
  | .fmul r _ _ _ => r != 6
  | .fdiv r _ _ _ => r != 6
  | .fsqrt r _ _ => r != 6
  | .fmin _ _ _ => true
  | .fmax _ _ _ => true
  | .fcmp c _ _ _ => c != 7
  | .fcvt r b _ _ => r != 6 && b.toNat < 6 && (b != 5 || r == 0)
  | .fclass _ _ => true
  | .fma _ _ _ _ => true
  | .mfs b _ => b.toNat < 13
  | .mts b _ => b == 1 || b == 5 || b == 10 || b == 11
  | .mtsFrm _ => true
  | .mtsFflags _ => true
  | .mtsSat _ => true
  | .mtsEfc _ => true
  | .mtsTstat _ => true
  | .mtsPrio _ => true
  | .mtsWshare _ => true
  | .mtsAspace _ => true
  | .mtsIshape _ => true
  | .trap _ => true
  | .eret => true
  | .halt => true
  | .fence s => s.toNat < 5
  | .fenceComplete _ => true
  | .iflush _ _ => true
  | .isync => true
  | .isyncComplete _ => true
  | .tlbinv _ _ => true
  | .tlbinvA _ => true
  | .tlbinvComplete _ => true
  | .spawn _ _ => true
  | .exit => true
  | .join _ _ => true
  | .leave _ _ => true
  | .barg _ _ => true
  | .staggeredRelease _ => true
  | .yield _ _ => true
  | .wpush _ _ => true
  | .wpop _ => true
  | .wsteal _ _ => true
  | .claim _ _ _ => true
  | .waitw s _ _ _ => s.toNat < 5
  | .waitwWake _ => true
  | .waitt _ _ => true
  | .waittWake _ => true
  | .vcfg _ _ _ => true
  | .vcfgVl _ => true
  | .vcfgVtype _ => true
  | .vcfgVlmax _ => true
  | .vcfgVcp _ => true
  | .vcfgVstart _ => true
  | .vcfgRlen _ => true
  | .vcfgi x _ _ _ => extLow6 x
  | .sbind p _ _ _ => ctlPre p true
  | .sbindQGeneral p _ d => ctlPre p false && d != 0
  | .sbindQVector p _ _ => ctlPre p true
  | .sunbind p _ _ => ctlPre p false
  | .sunbindQ p _ _ => ctlPre p false
  | .sskip p _ _ => ctlPre p false
  | .spos p _ _ => ctlPre p false
  | .stbar p s => ctlPre p false && 2 ≤ popCount 4 s.toNat
  | .stbarComplete _ => true
  | .waitc p _ _ => ctlPre p false
  | .waitcWake _ => true
  | .bset p _ _ d => ctlPre p false && d.toNat < 8
  | .tcfg p _ _ => ctlPre p false
  | .chwait p _ => ctlPre p false
  | .chwaitWake _ => true
  | .nset p _ d => ctlPre p false && d.toNat < 8
  | .nsetF p _ a d => ctlPre p false && a.toNat < 8 && d.toNat < 4
  | .nsig p a _ => ctlPre p false && a.toNat < 8
  | .nsigRank p a _ => ctlPre p false && a.toNat < 8
  | .nsigCount p a _ => ctlPre p false && a.toNat < 8
  | .nsigSeq p a _ => ctlPre p false && a.toNat < 8
  | .tmapset _ _ => true
  | .tfetch _ _ => true
  | .tevict _ _ => true
  | .tlog s _ _ d => tlogOk s d
  | .tcompact _ _ => true
  | .tstat _ _ => true
  | .vpubl _ _ => true
  | .vpublWait _ _ => true
  | .vpublAt _ _ _ => true
  | .vpublWaitAt _ _ _ => true
  | .vpublWaitResume _ => true
  | .toksw _ _ => true
  | .tokswMin _ _ _ => true
  | .tokswMinResume _ => true
  | .versionPinRelease _ _ => true
  | .sttok _ _ => true
  | .vpin _ _ => true
  | .vunpin _ _ => true
  | .hint _ => true
  | .cHint _ => true
  | .cAddi _ d => d != 0
  | .cAdd _ _ => true
  | .cSub _ _ => true
  | .cAnd _ _ => true
  | .cOr _ _ => true
  | .cXor _ _ => true
  | .cShli _ _ => true
  | .cShri _ _ => true
  | .cSari _ _ => true
  | .cLdI64 _ _ => true
  | .cStI64 _ _ => true
  | .cBeq _ _ => true
  | .cBne _ _ => true
  | .cJr d => d != 0
  | .cJalr d => d != 0
  | .cMv _ _ => true
  | .cvVaddI32 _ _ => true
  | .cvVsubI32 _ _ => true
  | .cvVmulI32 _ _ => true
  | .cvVmaccI32 _ _ => true
  | .cvVmaxI32 _ _ => true
  | .cvVxorI32 _ _ => true
  | .cvVfaddF32 _ _ => true
  | .cvVfmulF32 _ _ => true
  | .cvVfmaF32 _ _ => true
  | .cvVfmaxF32 _ _ => true
  | .cvVfaddBf16 _ _ => true
  | .cvVfmulBf16 _ _ => true
  | .cvVfmaBf16 _ _ => true
  | .cvVfmaxBf16 _ _ => true
  | .vaddVv o => o.shape true .vec .vec .vec
  | .vaddVg o => o.shape true .vec .vec .gen
  | .vaddVi o => o.shape true .vec .vec .imm
  | .vsubVv o => o.shape true .vec .vec .vec
  | .vsubVg o => o.shape true .vec .vec .gen
  | .vrsubVg o => o.shape true .vec .vec .gen
  | .vrsubVi o => o.shape true .vec .vec .imm
  | .vmulVv o => o.shape true .vec .vec .vec
  | .vmulVg o => o.shape true .vec .vec .gen
  | .vmulhVv o => o.shape true .vec .vec .vec
  | .vmulhVg o => o.shape true .vec .vec .gen
  | .vmaccVv o => o.shape true .vec .vec .vec
  | .vmaccVg o => o.shape true .vec .vec .gen
  | .vnmsacVv o => o.shape true .vec .vec .vec
  | .vnmsacVg o => o.shape true .vec .vec .gen
  | .vwaddVv o => o.shape true .vec .vec .vec
  | .vwaddVg o => o.shape true .vec .vec .gen
  | .vwmulVv o => o.shape true .vec .vec .vec
  | .vwmulVg o => o.shape true .vec .vec .gen
  | .vwmaccVv o => o.shape true .vec .vec .vec
  | .vwmaccVg o => o.shape true .vec .vec .gen
  | .vnshrVv o => o.shape true .vec .vec .vec
  | .vnshrVg o => o.shape true .vec .vec .gen
  | .vnshrVi o => o.shape true .vec .vec .imm
  | .vsaddVv o => o.shape true .vec .vec .vec
  | .vsaddVg o => o.shape true .vec .vec .gen
  | .vsaddVi o => o.shape true .vec .vec .imm
  | .vssubVv o => o.shape true .vec .vec .vec
  | .vssubVg o => o.shape true .vec .vec .gen
  | .vavgVv o => o.shape true .vec .vec .vec
  | .vavgVg o => o.shape true .vec .vec .gen
  | .vminVv o => o.shape true .vec .vec .vec
  | .vminVg o => o.shape true .vec .vec .gen
  | .vmaxVv o => o.shape true .vec .vec .vec
  | .vmaxVg o => o.shape true .vec .vec .gen
  | .vandVv o => o.shape true .vec .vec .vec
  | .vandVg o => o.shape true .vec .vec .gen
  | .vandVi o => o.shape true .vec .vec .imm
  | .vorVv o => o.shape true .vec .vec .vec
  | .vorVg o => o.shape true .vec .vec .gen
  | .vorVi o => o.shape true .vec .vec .imm
  | .vxorVv o => o.shape true .vec .vec .vec
  | .vxorVg o => o.shape true .vec .vec .gen
  | .vxorVi o => o.shape true .vec .vec .imm
  | .vshlVv o => o.shape true .vec .vec .vec
  | .vshlVg o => o.shape true .vec .vec .gen
  | .vshlVi o => o.shape true .vec .vec .imm
  | .vshrVv o => o.shape true .vec .vec .vec
  | .vshrVg o => o.shape true .vec .vec .gen
  | .vshrVi o => o.shape true .vec .vec .imm
  | .vsarVv o => o.shape true .vec .vec .vec
  | .vsarVg o => o.shape true .vec .vec .gen
  | .vsarVi o => o.shape true .vec .vec .imm
  | .vmergeVv o => o.shape true .vec .vec .vec && o.vm
  | .vmergeVg o => o.shape true .vec .vec .gen && o.vm
  | .vmergeVi o => o.shape true .vec .vec .imm && o.vm
  | .vmvVv o => o.shape true .vec .zero .vec
  | .vmvVg o => o.shape true .vec .zero .gen
  | .vmvVi o => o.shape true .vec .zero .imm
  | .vcmpEqVv o => o.shape true .mask .vec .vec
  | .vcmpEqVg o => o.shape true .mask .vec .gen
  | .vcmpEqVi o => o.shape true .mask .vec .imm
  | .vcmpNeVv o => o.shape true .mask .vec .vec
  | .vcmpNeVg o => o.shape true .mask .vec .gen
  | .vcmpNeVi o => o.shape true .mask .vec .imm
  | .vcmpLtVv o => o.shape true .mask .vec .vec
  | .vcmpLtVg o => o.shape true .mask .vec .gen
  | .vcmpLtVi o => o.shape true .mask .vec .imm
  | .vcmpLeVv o => o.shape true .mask .vec .vec
  | .vcmpLeVg o => o.shape true .mask .vec .gen
  | .vcmpLeVi o => o.shape true .mask .vec .imm
  | .vcmpGtVv o => o.shape true .mask .vec .vec
  | .vcmpGtVg o => o.shape true .mask .vec .gen
  | .vcmpGtVi o => o.shape true .mask .vec .imm
  | .vcmpGeVv o => o.shape true .mask .vec .vec
  | .vcmpGeVg o => o.shape true .mask .vec .gen
  | .vcmpGeVi o => o.shape true .mask .vec .imm
  | .vfaddVv o => o.shape true .vec .vec .vec && fpType o.e
  | .vfaddVg o => o.shape true .vec .vec .gen && fpType o.e
  | .vfsubVv o => o.shape true .vec .vec .vec && fpType o.e
  | .vfsubVg o => o.shape true .vec .vec .gen && fpType o.e
  | .vfmulVv o => o.shape true .vec .vec .vec && fpType o.e
  | .vfmulVg o => o.shape true .vec .vec .gen && fpType o.e
  | .vfmaVv o => o.shape true .vec .vec .vec && fpType o.e
  | .vfmaVg o => o.shape true .vec .vec .gen && fpType o.e
  | .vfnmaVv o => o.shape true .vec .vec .vec && fpType o.e
  | .vfnmaVg o => o.shape true .vec .vec .gen && fpType o.e
  | .vfdivVv o => o.shape true .vec .vec .vec && fpType o.e
  | .vfdivVg o => o.shape true .vec .vec .gen && fpType o.e
  | .vfsqrt o => o.shape true .vec .vec .zero && fpType o.e
  | .vfminVv o => o.shape true .vec .vec .vec && fpType o.e
  | .vfminVg o => o.shape true .vec .vec .gen && fpType o.e
  | .vfmaxVv o => o.shape true .vec .vec .vec && fpType o.e
  | .vfmaxVg o => o.shape true .vec .vec .gen && fpType o.e
  | .vfcmpEqVv o => o.shape true .mask .vec .vec && fpType o.e
  | .vfcmpEqVg o => o.shape true .mask .vec .gen && fpType o.e
  | .vfcmpNeVv o => o.shape true .mask .vec .vec && fpType o.e
  | .vfcmpNeVg o => o.shape true .mask .vec .gen && fpType o.e
  | .vfcmpLtVv o => o.shape true .mask .vec .vec && fpType o.e
  | .vfcmpLtVg o => o.shape true .mask .vec .gen && fpType o.e
  | .vfcmpLeVv o => o.shape true .mask .vec .vec && fpType o.e
  | .vfcmpLeVg o => o.shape true .mask .vec .gen && fpType o.e
  | .vfcmpGtVv o => o.shape true .mask .vec .vec && fpType o.e
  | .vfcmpGtVg o => o.shape true .mask .vec .gen && fpType o.e
  | .vfcmpGeVv o => o.shape true .mask .vec .vec && fpType o.e
  | .vfcmpGeVg o => o.shape true .mask .vec .gen && fpType o.e
  | .vfcmpUnVv o => o.shape true .mask .vec .vec && fpType o.e
  | .vfcmpUnVg o => o.shape true .mask .vec .gen && fpType o.e
  | .mand o => o.shape false .mask .mask .mask && !o.vm && o.e == 0
  | .mor o => o.shape false .mask .mask .mask && !o.vm && o.e == 0
  | .mxor o => o.shape false .mask .mask .mask && !o.vm && o.e == 0
  | .mnot o => o.shape false .mask .mask .zero && !o.vm && o.e == 0
  | .mpopc o => o.shape false .gen .mask .zero && o.e == 0
  | .mffs o => o.shape false .gen .mask .zero && o.e == 0
  | .mset o => o.shape false .mask .mask .zero && !o.vm && msetOk o
  | .vreconf o => o.shape false .zero .zero .zero && !o.vm && o.e.toNat < 4
  | .vslideu o => o.shape false .vec .vec .gen && o.d6 != o.a6
  | .vslided o => o.shape false .vec .vec .gen && o.d6 != o.a6
  | .vgather o => o.shape false .vec .vec .vec && o.d6 != o.a6 && o.d6 != o.b6
  | .vcompress o => o.shape false .vec .vec .mask && !o.vm && o.d6 != o.a6
  | .viota o => o.shape false .vec .mask .zero
  | .vext o => o.shape false .gen .vec .gen && !o.vm
  | .vins o => o.shape false .vec .gen .gen && !o.vm
  | .vredsum o => o.shape false .vec .vec .vec
  | .vredmax o => o.shape false .vec .vec .vec
  | .vredmin o => o.shape false .vec .vec .vec
  | .vfredsum o => o.shape false .vec .vec .vec && fpType o.e
  | .vfredmax o => o.shape false .vec .vec .vec && fpType o.e
  | .vfredmin o => o.shape false .vec .vec .vec && fpType o.e
  | .vfredms o => o.shape false .vec .vec .vec && o.e == 2
  | .vfcvt o => o.shape false .vec .vec .imm && o.e != 6 && o.b.toNat < 6 && (o.b != 5 || o.e == 7)
  | .vfcvtEf o => o.shape false .vec .vec .imm && o.e != 6 && o.b.toNat < 2
  | .vrec o => o.shape false .zero .zero .zero && o.e == 0 && !o.vm && !o.c
  | .vendrec o => o.shape false .zero .zero .zero && o.e == 0 && !o.vm && !o.c
  | .vreplay o => o.shape false .zero .gen .zero && o.e == 0 && !o.vm && !o.c
  | .aalloc o => o.shape true false false 1 .gen .hand .zero && o.q == 0
  | .aallocWait o => o.shape true false false 1 .gen .hand .zero && o.q == 1
  | .aallocWaitBind _ => true
  | .afree o => o.shape true false false 1 .hand .zero .zero && o.q == 0
  | .aclr o => o.shape true false false 1 .hand .zero .zero && o.q == 0
  | .ldws o => o.shape true false false 1 .hand .vec .imm && ldwsOk o
  | .swpl o => o.shape true false false 1 .hand .zero .zero && o.q == 0
  | .mstream o => o.shape true true false 1 .hand .vec .gen && o.q.toNat < 2
  | .mopa o => o.shape true true false 1 .hand .vec .vec && o.q.toNat < 2
  | .mops o => o.shape true true false 1 .hand .vec .vec && o.q.toNat < 2
  | .axtr o => o.shape true true true 1 .vec .hand .gen && o.q.toNat < 4
  | .axtc o => o.shape true true true 1 .vec .hand .gen && o.q.toNat < 4
  | .asave o => o.shape true false false 1 .hand .gen .zero && o.q == 0
  | .aload o => o.shape true false false 1 .hand .gen .zero && o.q == 0
  | .aaddi o => o.shape true false false 1 .hand .gen .zero && o.q == 0
  | .trow o => o.shape true true false 1 .tile .vec .gen && o.q.toNat < 2
  | .tcol o => o.shape true true false 1 .vec .tile .gen && o.q.toNat < 2
  | .tld o => o.shape true false false 1 .tile .gen .gen && o.q.toNat < 2
  | .tst o => o.shape true false false 1 .tile .gen .gen && o.q.toNat < 2
  | .vld o => o.shape .yes 0 .vec .gen .imm && (if o.f == 13 then o.b.toNat < 4 else o.f.toNat < 13 && o.b == 0)
  | .vlds o => o.shape .yes 0 .vec .gen .gen && o.f.toNat < 13
  | .vldx o => o.shape .yes 0 .vec .gen .vec && o.f.toNat < 13
  | .vldseg o => o.shape .never 0 .vec .gen .imm && o.f.toNat < 13 && o.b != 0 && o.b.toNat < 8
  | .vldff o => o.shape .yes 0 .vec .gen .gen && o.f.toNat < 13
  | .cbld o => o.shape .never 0 .cb .gen .zero && o.f == 0 && !o.vm
  | .vfill o => o.shape .zeroOnly 0 .vec .gen .zero && o.f == 0 && !o.vm
  | .vst o => o.shape .yes 0 .vec .gen .imm && (if o.f == 13 then o.b.toNat < 4 else o.f.toNat < 13 && o.b == 0)
  | .vsts o => o.shape .yes 0 .vec .gen .gen && o.f.toNat < 13
  | .vstx o => o.shape .yes 0 .vec .gen .vec && o.f.toNat < 13
  | .vstseg o => o.shape .never 0 .vec .gen .imm && o.f.toNat < 13 && o.b != 0 && o.b.toNat < 8
  | .vspill o => o.shape .zeroOnly 0 .vec .gen .zero && o.f == 0 && !o.vm
  | .ldpSum o => o.shape .no 0 .vec .bank .gen && o.f.toNat < 10
  | .ldpMax o => o.shape .no 0 .vec .bank .gen && o.f.toNat < 10
  | .ldpMin o => o.shape .no 0 .vec .bank .gen && o.f.toNat < 10
  | .ldpMaxsum o => o.shape .no 0 .vec .bank .gen && o.f == 9
  | .ldpAnd o => o.shape .no 0 .vec .bank .gen && o.f.toNat < 8
  | .ldpOr o => o.shape .no 0 .vec .bank .gen && o.f.toNat < 8
  | .ldpXor o => o.shape .no 0 .vec .bank .gen && o.f.toNat < 8
  | .ldpFirst o => o.shape .no 0 .vec .bank .gen && o.f.toNat < 10
  | .stp o => o.shape .no 0 .vec .bank .gen && o.f.toNat < 13
  | .chrun o => o.shape .no 0 .gen .bank .gen && o.f == 0
  | .chordCommandPlace _ => true
  | .chordRunStart _ => true
  | .chordRunEnd _ => true
  | .vamoAdd o => o.shape .no 0 .vec .gen .vec && amoAny o.f
  | .vamoMin o => o.shape .no 0 .vec .gen .vec && amoAny o.f
  | .vamoMax o => o.shape .no 0 .vec .gen .vec && amoAny o.f
  | .vamoAnd o => o.shape .no 0 .vec .gen .vec && amoInt o.f
  | .vamoOr o => o.shape .no 0 .vec .gen .vec && amoInt o.f
  | .vamoXor o => o.shape .no 0 .vec .gen .vec && amoInt o.f
  | .vamoSwap o => o.shape .no 0 .vec .gen .vec && amoAny o.f
  | .vamoCas o => o.shape .no 0 .vec .gen .vec && amoAny o.f
  | .vamooAdd o => o.shape .no 0 .vec .gen .vec && amoAny o.f
  | .vamooMin o => o.shape .no 0 .vec .gen .vec && amoAny o.f
  | .vamooMax o => o.shape .no 0 .vec .gen .vec && amoAny o.f
  | .vamooAnd o => o.shape .no 0 .vec .gen .vec && amoInt o.f
  | .vamooOr o => o.shape .no 0 .vec .gen .vec && amoInt o.f
  | .vamooXor o => o.shape .no 0 .vec .gen .vec && amoInt o.f
  | .vamooSwap o => o.shape .no 0 .vec .gen .vec && amoAny o.f
  | .vamooCas o => o.shape .no 0 .vec .gen .vec && amoAny o.f
  | .tmov o => o.shape false false false 2 .zero .gen .gen && o.q == 0
  | .tmovComplete _ => true
  | .tokp o => o.shape false false false 9 .zero .zero .zero && tokOk o
  | .tokw o => o.shape false false false 9 .zero .zero .zero && tokOk o
  | .vfence o => o.shape false false false 0 .zero .zero .zero && o.q.toNat < 5
  | .vfenceD o => o.shape false false false 0 .zero .zero .zero && o.q.toNat < 5
  | .vcoll o => kLegal o
  | .collectiveChunkArrival _ => true
  | .collectiveGo _ => true
  | .collectiveAbort _ => true
  | .vsend o => o.shape .no 3 .fab .vec .zero && !o.vm && o.f.toNat < 10
  | .vrecv o => o.shape .no 3 .vec .fab .zero && !o.vm && o.f.toNat < 10
  | .messageArrival _ => true
  | .endpointChunkSend _ => true
  | .slotFreeNotice _ => true
  | .fabricErrorTimeout _ _ => true
  | .linkFlitRetry _ => true
  | .entryStart _ => true
  | .entryCommit _ => true
  | .vectorQueuePushResume _ => true
  | .queueRegisterResume _ _ => true
  | .streamStripRead _ _ => true
  | .writeStreamStore _ => true
  | .tileLogCompaction _ _ _ => true
  | .tileArrival _ _ _ => true
  | .tileLeave _ _ _ => true
  | .combineDrain _ => true
  | .slotPlacement _ _ => true
  | .preemption _ => true
  | .contextSaveDone _ => true
  | .lmaxExpiry _ => true
  | .latticeIdleTimeout _ => true
  | .storageErrorDetected _ => true
  | .hostMemAccess _ _ _ => true
  | .powerOnReset _ => true
  | .expanderLost _ => true
  | .fuondLinkFailed _ => true
  | .ptpMessage _ => true
  | .ptpLockLost => true
  | .ident _ => true
  | .partset _ => true
  | .lmax _ => true
  | .vtabRegister _ => true
  | .vtabRemove _ => true
  | .planld _ => true
  | .planfr _ => true
  | .slew _ => true
  | .pkgid _ => true
  | .dbgAttach _ => true
  | .dbgDetach _ => true
  | .dbgResume _ => true
  | .dbgSave _ => true
  | .dbgRestore _ => true
  | .status _ => true
  | .fwupd _ => true
  | .softc _ => true
  | .launch _ => true
  | .memcap _ => true
  | .unknownCommand _ => true
  | .getVersion _ => true
  | .getCapabilities _ => true
  | .negotiateAlgorithms _ => true
  | .getDigests _ => true
  | .getCertificate _ => true
  | .challenge _ => true
  | .getMeasurements _ => true
  | .securedSession _ => true
  | .hdmDecoderWrite _ => true
  | .confirmationReportArrival _ => true
  | .linkRetrain _ => true
  | .syncInterval _ => true

end Sys2Proof.Machine
end

