-- ==== Sys2Proof/WellFormed.lean ====
section
/-! DEFINITION. A well-formed instruction: one that meets every decode check of R76. -/

namespace Sys2Proof

/-- Every field of `i` holds a value that its chapter lists (R51, R54 to R58, R66 to R70, R76). -/
def Instr.wellFormed (i : Instr) : Bool := Machine.legal i

end Sys2Proof
end

