-- ==== Sys2Proof/Decode.lean ====
section
/-! DEFINITION. Decoding, total on any bits and on any bytes, and after it the encoder, both written from the encoding tables
of spec/03_encoding.md (R47 to R76). The definitions are marked noncomputable because the runtime of Lean 4.33 holds no
constructor numbered above 244 of one inductive; Lean's kernel evaluates them all. -/

namespace Sys2Proof
open Sys2Proof.Machine (fld)

noncomputable section

/-- Bit field `[lo + n - 1 : lo]` of a word as a bit vector. -/
def bvf (w lo n : Nat) : BitVec n := BitVec.ofNat n (fld w lo n)

/-- One-bit field as a Bool. -/
def bit (w i : Nat) : Bool := fld w i 1 == 1

def vOps (p : Pre) (w : Nat) : VOps := ⟨p, bvf w 25 3, bit w 24, bit w 23, bvf w 18 5, bvf w 13 5, bvf w 8 5⟩
def mOps (p : Pre) (w : Nat) : MOps := ⟨p, bvf w 25 4, bit w 24, bit w 23, bvf w 18 5, bvf w 13 5, bvf w 8 5⟩
def xOps (p : Pre) (w : Nat) : XOps := ⟨p, bvf w 28 4, bit w 23, bvf w 18 5, bvf w 13 5, bvf w 8 5⟩
def kOps (p : Pre) (w : Nat) : KOps :=
  ⟨p, bvf w 29 3, bvf w 27 2, bvf w 24 3, bit w 23, bvf w 18 5, bvf w 13 5, bvf w 8 5⟩

/-- A prefix word as a prefix record; none where a bit that must be zero is not, or the class is unassigned (R68). -/
def decodePre (w : Nat) : Option Pre :=
  if fld w 2 6 = 0 then some (.mod (bvf w 20 12) (bvf w 8 12))
  else if fld w 2 6 = 1 then
    if fld w 23 9 = 0 then
      some (.hireg (bvf w 20 3) (bit w 19) (bit w 18) (bit w 17) (bit w 16) (bvf w 8 8))
    else none
  else if fld w 2 6 = 2 then
    if fld w 19 1 = 0 then some (.tokmod (bvf w 20 12) (bvf w 16 3) (bvf w 8 8)) else none
  else if fld w 2 6 = 4 then some (.tile (bvf w 16 16) (bvf w 8 8))
  else if fld w 2 6 = 5 then
    if fld w 13 19 = 0 then some (.scale (bvf w 8 5)) else none
  else none

/-- Major 0x00. -/
def decodeMajor00 (w : Nat) : Option Instr :=
  if fld w 27 5 = 0 ∧ fld w 23 4 = 0 then some (.add (bvf w 18 5) (bvf w 13 5) (bvf w 8 5))
  else if fld w 27 5 = 1 ∧ fld w 23 4 = 0 then some (.sub (bvf w 18 5) (bvf w 13 5) (bvf w 8 5))
  else if fld w 27 5 = 2 ∧ fld w 23 4 = 0 then some (.mul (bvf w 18 5) (bvf w 13 5) (bvf w 8 5))
  else if fld w 27 5 = 3 ∧ fld w 23 4 = 0 then some (.mulh (bvf w 18 5) (bvf w 13 5) (bvf w 8 5))
  else if fld w 27 5 = 4 ∧ fld w 23 4 = 0 then some (.mulhw (bvf w 18 5) (bvf w 13 5) (bvf w 8 5))
  else if fld w 27 5 = 5 ∧ fld w 23 4 = 0 then some (.div (bvf w 18 5) (bvf w 13 5) (bvf w 8 5))
  else if fld w 27 5 = 6 ∧ fld w 23 4 = 0 then some (.divw (bvf w 18 5) (bvf w 13 5) (bvf w 8 5))
  else if fld w 27 5 = 7 ∧ fld w 23 4 = 0 then some (.rem (bvf w 18 5) (bvf w 13 5) (bvf w 8 5))
  else if fld w 27 5 = 8 ∧ fld w 23 4 = 0 then some (.remw (bvf w 18 5) (bvf w 13 5) (bvf w 8 5))
  else if fld w 27 5 = 9 ∧ fld w 23 4 = 0 then some (.and (bvf w 18 5) (bvf w 13 5) (bvf w 8 5))
  else if fld w 27 5 = 10 ∧ fld w 23 4 = 0 then some (.or (bvf w 18 5) (bvf w 13 5) (bvf w 8 5))
  else if fld w 27 5 = 11 ∧ fld w 23 4 = 0 then some (.xor (bvf w 18 5) (bvf w 13 5) (bvf w 8 5))
  else if fld w 27 5 = 12 ∧ fld w 23 4 = 0 then some (.shl (bvf w 18 5) (bvf w 13 5) (bvf w 8 5))
  else if fld w 27 5 = 13 ∧ fld w 23 4 = 0 then some (.shr (bvf w 18 5) (bvf w 13 5) (bvf w 8 5))
  else if fld w 27 5 = 14 ∧ fld w 23 4 = 0 then some (.sar (bvf w 18 5) (bvf w 13 5) (bvf w 8 5))
  else if fld w 27 5 = 15 ∧ fld w 23 4 = 0 then some (.slt (bvf w 18 5) (bvf w 13 5) (bvf w 8 5))
  else if fld w 27 5 = 16 ∧ fld w 23 4 = 0 then some (.sltw (bvf w 18 5) (bvf w 13 5) (bvf w 8 5))
  else if fld w 27 5 = 17 ∧ fld w 23 4 = 0 then some (.min (bvf w 18 5) (bvf w 13 5) (bvf w 8 5))
  else if fld w 27 5 = 18 ∧ fld w 23 4 = 0 then some (.max (bvf w 18 5) (bvf w 13 5) (bvf w 8 5))
  else if fld w 27 5 = 19 ∧ fld w 23 4 = 0 then some (.minw (bvf w 18 5) (bvf w 13 5) (bvf w 8 5))
  else if fld w 27 5 = 20 ∧ fld w 23 4 = 0 then some (.maxw (bvf w 18 5) (bvf w 13 5) (bvf w 8 5))
  else if fld w 27 5 = 21 ∧ fld w 23 4 = 0 ∧ fld w 18 5 = 0 then some (.clz (bvf w 13 5) (bvf w 8 5))
  else if fld w 27 5 = 22 ∧ fld w 23 4 = 0 ∧ fld w 18 5 = 0 then some (.ctz (bvf w 13 5) (bvf w 8 5))
  else if fld w 27 5 = 23 ∧ fld w 23 4 = 0 ∧ fld w 18 5 = 0 then some (.popc (bvf w 13 5) (bvf w 8 5))
  else none

/-- Major 0x01. -/
def decodeMajor01 (x : Ext) (w : Nat) : Option Instr :=
  some (.addi x (bvf w 18 14) (bvf w 13 5) (bvf w 8 5))

/-- Major 0x02. -/
def decodeMajor02 (x : Ext) (w : Nat) : Option Instr :=
  some (.andi x (bvf w 18 14) (bvf w 13 5) (bvf w 8 5))

/-- Major 0x03. -/
def decodeMajor03 (x : Ext) (w : Nat) : Option Instr :=
  some (.ori x (bvf w 18 14) (bvf w 13 5) (bvf w 8 5))

/-- Major 0x04. -/
def decodeMajor04 (x : Ext) (w : Nat) : Option Instr :=
  some (.xori x (bvf w 18 14) (bvf w 13 5) (bvf w 8 5))

/-- Major 0x05. -/
def decodeMajor05 (x : Ext) (w : Nat) : Option Instr :=
  some (.slti x (bvf w 18 14) (bvf w 13 5) (bvf w 8 5))

/-- Major 0x06. -/
def decodeMajor06 (w : Nat) : Option Instr :=
  if fld w 27 5 = 0 ∧ fld w 24 3 = 0 then some (.shli (bvf w 18 6) (bvf w 13 5) (bvf w 8 5))
  else if fld w 27 5 = 0 ∧ fld w 24 3 = 1 then some (.shri (bvf w 18 6) (bvf w 13 5) (bvf w 8 5))
  else if fld w 27 5 = 0 ∧ fld w 24 3 = 2 then some (.sari (bvf w 18 6) (bvf w 13 5) (bvf w 8 5))
  else none

/-- Major 0x07. -/
def decodeMajor07 (x : Ext) (w : Nat) : Option Instr :=
  some (.lui x (bvf w 13 19) (bvf w 8 5))

/-- Major 0x08. -/
def decodeMajor08 (x : Ext) (w : Nat) : Option Instr :=
  some (.addpc x (bvf w 13 19) (bvf w 8 5))

/-- Major 0x09. -/
def decodeMajor09 (x : Ext) (w : Nat) : Option Instr :=
  some (.ld x (bvf w 21 11) (bvf w 18 3) (bvf w 13 5) (bvf w 8 5))

/-- Major 0x0A. -/
def decodeMajor0A (x : Ext) (w : Nat) : Option Instr :=
  some (.st x (bvf w 26 6) (bvf w 23 3) (bvf w 18 5) (bvf w 13 5) (bvf w 8 5))

/-- Major 0x0B. -/
def decodeMajor0B (w : Nat) : Option Instr :=
  if fld w 18 5 = 0 ∧ fld w 29 3 = 0 then some (.ldAcq (bvf w 26 3) (bvf w 23 3) (bvf w 13 5) (bvf w 8 5))
  else if fld w 8 5 = 0 ∧ fld w 29 3 = 1 then some (.stRel (bvf w 26 3) (bvf w 23 3) (bvf w 18 5) (bvf w 13 5))
  else none

/-- Major 0x0C. -/
def decodeMajor0C (w : Nat) : Option Instr :=
  if fld w 23 4 = 0 ∧ fld w 31 1 = 0 then some (.amoAdd (bvf w 27 4) (bvf w 18 5) (bvf w 13 5) (bvf w 8 5))
  else if fld w 23 4 = 1 ∧ fld w 31 1 = 0 then some (.amoMin (bvf w 27 4) (bvf w 18 5) (bvf w 13 5) (bvf w 8 5))
  else if fld w 23 4 = 2 ∧ fld w 31 1 = 0 then some (.amoMax (bvf w 27 4) (bvf w 18 5) (bvf w 13 5) (bvf w 8 5))
  else if fld w 23 4 = 3 ∧ fld w 31 1 = 0 then some (.amoAnd (bvf w 27 4) (bvf w 18 5) (bvf w 13 5) (bvf w 8 5))
  else if fld w 23 4 = 4 ∧ fld w 31 1 = 0 then some (.amoOr (bvf w 27 4) (bvf w 18 5) (bvf w 13 5) (bvf w 8 5))
  else if fld w 23 4 = 5 ∧ fld w 31 1 = 0 then some (.amoXor (bvf w 27 4) (bvf w 18 5) (bvf w 13 5) (bvf w 8 5))
  else if fld w 23 4 = 6 ∧ fld w 31 1 = 0 then some (.amoSwap (bvf w 27 4) (bvf w 18 5) (bvf w 13 5) (bvf w 8 5))
  else if fld w 23 4 = 7 ∧ fld w 31 1 = 0 then some (.amoCas (bvf w 27 4) (bvf w 18 5) (bvf w 13 5) (bvf w 8 5))
  else if fld w 8 5 = 0 ∧ fld w 23 4 = 8 ∧ fld w 31 1 = 0 then some (.amox (bvf w 27 4) (bvf w 18 5) (bvf w 13 5))
  else none

/-- Major 0x0D. -/
def decodeMajor0D (x : Ext) (w : Nat) : Option Instr :=
  some (.beq x (bvf w 23 9) (bvf w 18 5) (bvf w 13 5) (bvf w 8 5))

/-- Major 0x0E. -/
def decodeMajor0E (x : Ext) (w : Nat) : Option Instr :=
  some (.bne x (bvf w 23 9) (bvf w 18 5) (bvf w 13 5) (bvf w 8 5))

/-- Major 0x0F. -/
def decodeMajor0F (x : Ext) (w : Nat) : Option Instr :=
  some (.blt x (bvf w 23 9) (bvf w 18 5) (bvf w 13 5) (bvf w 8 5))

/-- Major 0x10. -/
def decodeMajor10 (x : Ext) (w : Nat) : Option Instr :=
  some (.bge x (bvf w 23 9) (bvf w 18 5) (bvf w 13 5) (bvf w 8 5))

/-- Major 0x11. -/
def decodeMajor11 (x : Ext) (w : Nat) : Option Instr :=
  some (.bltw x (bvf w 23 9) (bvf w 18 5) (bvf w 13 5) (bvf w 8 5))

/-- Major 0x12. -/
def decodeMajor12 (x : Ext) (w : Nat) : Option Instr :=
  some (.bgew x (bvf w 23 9) (bvf w 18 5) (bvf w 13 5) (bvf w 8 5))

/-- Major 0x13. -/
def decodeMajor13 (x : Ext) (w : Nat) : Option Instr :=
  some (.jal x (bvf w 13 19) (bvf w 8 5))

/-- Major 0x14. -/
def decodeMajor14 (x : Ext) (w : Nat) : Option Instr :=
  some (.jalr x (bvf w 18 14) (bvf w 13 5) (bvf w 8 5))

/-- Major 0x15. -/
def decodeMajor15 (w : Nat) : Option Instr :=
  if fld w 27 5 = 0 then some (.loopn (bvf w 23 4) (bvf w 18 5) (bvf w 13 5) (bvf w 8 5))
  else none

/-- Major 0x16. -/
def decodeMajor16 (w : Nat) : Option Instr :=
  if fld w 27 5 = 0 ∧ fld w 26 1 = 0 then some (.fadd (bvf w 23 3) (bvf w 18 5) (bvf w 13 5) (bvf w 8 5))
  else if fld w 27 5 = 1 ∧ fld w 26 1 = 0 then some (.fsub (bvf w 23 3) (bvf w 18 5) (bvf w 13 5) (bvf w 8 5))
  else if fld w 27 5 = 2 ∧ fld w 26 1 = 0 then some (.fmul (bvf w 23 3) (bvf w 18 5) (bvf w 13 5) (bvf w 8 5))
  else if fld w 27 5 = 3 ∧ fld w 26 1 = 0 then some (.fdiv (bvf w 23 3) (bvf w 18 5) (bvf w 13 5) (bvf w 8 5))
  else if fld w 18 5 = 0 ∧ fld w 27 5 = 4 ∧ fld w 26 1 = 0 then some (.fsqrt (bvf w 23 3) (bvf w 13 5) (bvf w 8 5))
  else if fld w 27 5 = 5 ∧ fld w 23 4 = 0 then some (.fmin (bvf w 18 5) (bvf w 13 5) (bvf w 8 5))
  else if fld w 27 5 = 6 ∧ fld w 23 4 = 0 then some (.fmax (bvf w 18 5) (bvf w 13 5) (bvf w 8 5))
  else if fld w 27 5 = 7 ∧ fld w 26 1 = 0 then some (.fcmp (bvf w 23 3) (bvf w 18 5) (bvf w 13 5) (bvf w 8 5))
  else if fld w 27 5 = 8 ∧ fld w 26 1 = 0 then some (.fcvt (bvf w 23 3) (bvf w 18 5) (bvf w 13 5) (bvf w 8 5))
  else if fld w 27 5 = 9 ∧ fld w 23 4 = 0 ∧ fld w 18 5 = 0 then some (.fclass (bvf w 13 5) (bvf w 8 5))
  else none

/-- Major 0x17. -/
def decodeMajor17 (w : Nat) : Option Instr :=
  if fld w 28 4 = 0 then some (.fma (bvf w 23 5) (bvf w 18 5) (bvf w 13 5) (bvf w 8 5))
  else none

/-- Major 0x18. -/
def decodeMajor18 (w : Nat) : Option Instr :=
  if fld w 8 5 = 0 ∧ fld w 27 5 = 1 ∧ fld w 23 4 = 0 ∧ fld w 18 5 = 0 then some (.mtsFrm (bvf w 13 5))
  else if fld w 8 5 = 0 ∧ fld w 27 5 = 1 ∧ fld w 23 4 = 0 ∧ fld w 18 5 = 2 then some (.mtsFflags (bvf w 13 5))
  else if fld w 8 5 = 0 ∧ fld w 27 5 = 1 ∧ fld w 23 4 = 0 ∧ fld w 18 5 = 3 then some (.mtsSat (bvf w 13 5))
  else if fld w 8 5 = 0 ∧ fld w 27 5 = 1 ∧ fld w 23 4 = 0 ∧ fld w 18 5 = 4 then some (.mtsEfc (bvf w 13 5))
  else if fld w 8 5 = 0 ∧ fld w 27 5 = 1 ∧ fld w 23 4 = 0 ∧ fld w 18 5 = 6 then some (.mtsTstat (bvf w 13 5))
  else if fld w 8 5 = 0 ∧ fld w 27 5 = 1 ∧ fld w 23 4 = 0 ∧ fld w 18 5 = 7 then some (.mtsPrio (bvf w 13 5))
  else if fld w 8 5 = 0 ∧ fld w 27 5 = 1 ∧ fld w 23 4 = 0 ∧ fld w 18 5 = 8 then some (.mtsWshare (bvf w 13 5))
  else if fld w 8 5 = 0 ∧ fld w 27 5 = 1 ∧ fld w 23 4 = 0 ∧ fld w 18 5 = 9 then some (.mtsAspace (bvf w 13 5))
  else if fld w 8 5 = 0 ∧ fld w 27 5 = 1 ∧ fld w 23 4 = 0 ∧ fld w 18 5 = 12 then some (.mtsIshape (bvf w 13 5))
  else if fld w 13 5 = 0 ∧ fld w 27 5 = 0 ∧ fld w 23 4 = 0 then some (.mfs (bvf w 18 5) (bvf w 8 5))
  else if fld w 8 5 = 0 ∧ fld w 27 5 = 1 ∧ fld w 23 4 = 0 then some (.mts (bvf w 18 5) (bvf w 13 5))
  else if fld w 8 10 = 0 ∧ fld w 27 5 = 2 ∧ fld w 23 4 = 0 then some (.trap (bvf w 18 5))
  else if fld w 27 5 = 3 ∧ fld w 23 4 = 0 ∧ fld w 8 15 = 0 then some .eret
  else if fld w 27 5 = 4 ∧ fld w 23 4 = 0 ∧ fld w 8 15 = 0 then some .halt
  else if fld w 8 15 = 0 ∧ fld w 27 5 = 5 ∧ fld w 26 1 = 0 then some (.fence (bvf w 23 3))
  else if fld w 8 5 = 0 ∧ fld w 27 5 = 6 ∧ fld w 23 4 = 0 then some (.iflush (bvf w 18 5) (bvf w 13 5))
  else if fld w 27 5 = 7 ∧ fld w 23 4 = 0 ∧ fld w 8 15 = 0 then some .isync
  else if fld w 8 5 = 0 ∧ fld w 27 5 = 8 ∧ fld w 23 4 = 0 then some (.tlbinv (bvf w 18 5) (bvf w 13 5))
  else if fld w 8 5 = 0 ∧ fld w 27 5 = 9 ∧ fld w 23 4 = 0 ∧ fld w 18 5 = 0 then some (.tlbinvA (bvf w 13 5))
  else none

/-- Major 0x19. -/
def decodeMajor19 (w : Nat) : Option Instr :=
  if fld w 27 5 = 0 ∧ fld w 23 4 = 0 ∧ fld w 18 5 = 0 then some (.spawn (bvf w 13 5) (bvf w 8 5))
  else if fld w 27 5 = 1 ∧ fld w 23 4 = 0 ∧ fld w 8 15 = 0 then some .exit
  else if fld w 27 5 = 2 ∧ fld w 23 4 = 0 ∧ fld w 18 5 = 0 then some (.join (bvf w 13 5) (bvf w 8 5))
  else if fld w 27 5 = 3 ∧ fld w 23 4 = 0 ∧ fld w 18 5 = 0 then some (.leave (bvf w 13 5) (bvf w 8 5))
  else if fld w 27 5 = 4 ∧ fld w 23 4 = 0 ∧ fld w 18 5 = 0 then some (.barg (bvf w 13 5) (bvf w 8 5))
  else if fld w 27 5 = 5 ∧ fld w 23 4 = 0 ∧ fld w 18 5 = 0 then some (.yield (bvf w 13 5) (bvf w 8 5))
  else if fld w 27 5 = 6 ∧ fld w 23 4 = 0 ∧ fld w 18 5 = 0 then some (.wpush (bvf w 13 5) (bvf w 8 5))
  else if fld w 27 5 = 7 ∧ fld w 23 4 = 0 ∧ fld w 13 10 = 0 then some (.wpop (bvf w 8 5))
  else if fld w 27 5 = 8 ∧ fld w 23 4 = 0 ∧ fld w 18 5 = 0 then some (.wsteal (bvf w 13 5) (bvf w 8 5))
  else if fld w 27 5 = 9 ∧ fld w 23 4 = 0 then some (.claim (bvf w 18 5) (bvf w 13 5) (bvf w 8 5))
  else if fld w 27 5 = 10 ∧ fld w 26 1 = 0 then some (.waitw (bvf w 23 3) (bvf w 18 5) (bvf w 13 5) (bvf w 8 5))
  else if fld w 27 5 = 11 ∧ fld w 23 4 = 0 ∧ fld w 18 5 = 0 then some (.waitt (bvf w 13 5) (bvf w 8 5))
  else none

/-- Major 0x1A. -/
def decodeMajor1A (w : Nat) : Option Instr :=
  if fld w 27 5 = 0 ∧ fld w 23 4 = 0 then some (.vcfg (bvf w 18 5) (bvf w 13 5) (bvf w 8 5))
  else if fld w 27 5 = 0 ∧ fld w 23 4 = 1 ∧ fld w 13 10 = 0 then some (.vcfgVl (bvf w 8 5))
  else if fld w 27 5 = 0 ∧ fld w 23 4 = 2 ∧ fld w 13 10 = 0 then some (.vcfgVtype (bvf w 8 5))
  else if fld w 27 5 = 0 ∧ fld w 23 4 = 3 ∧ fld w 13 10 = 0 then some (.vcfgVlmax (bvf w 8 5))
  else if fld w 27 5 = 0 ∧ fld w 23 4 = 4 ∧ fld w 13 10 = 0 then some (.vcfgVcp (bvf w 8 5))
  else if fld w 27 5 = 0 ∧ fld w 23 4 = 5 ∧ fld w 13 10 = 0 then some (.vcfgVstart (bvf w 8 5))
  else if fld w 27 5 = 0 ∧ fld w 23 4 = 6 ∧ fld w 13 10 = 0 then some (.vcfgRlen (bvf w 8 5))
  else none

/-- Major 0x1B. -/
def decodeMajor1B (x : Ext) (w : Nat) : Option Instr :=
  if fld w 24 8 = 0 then some (.vcfgi x (bvf w 18 6) (bvf w 13 5) (bvf w 8 5))
  else none

/-- Major 0x1C. -/
def decodeMajor1C (p : Pre) (w : Nat) : Option Instr :=
  if fld w 18 5 = 0 ∧ fld w 27 5 = 0 ∧ fld w 26 1 = 0 then some (.sbind p (bvf w 23 3) (bvf w 13 5) (bvf w 8 5))
  else if fld w 13 10 = 0 ∧ fld w 27 5 = 0 ∧ fld w 26 1 = 1 then some (.sbindQGeneral p (bvf w 23 3) (bvf w 8 5))
  else if fld w 13 10 = 32 ∧ fld w 27 5 = 0 ∧ fld w 26 1 = 1 then some (.sbindQVector p (bvf w 23 3) (bvf w 8 5))
  else if fld w 13 10 = 0 ∧ fld w 27 5 = 1 ∧ fld w 26 1 = 0 then some (.sunbind p (bvf w 23 3) (bvf w 8 5))
  else if fld w 13 10 = 0 ∧ fld w 27 5 = 1 ∧ fld w 26 1 = 1 then some (.sunbindQ p (bvf w 23 3) (bvf w 8 5))
  else if fld w 8 5 = 0 ∧ fld w 18 5 = 0 ∧ fld w 27 5 = 2 ∧ fld w 26 1 = 0 then some (.sskip p (bvf w 23 3) (bvf w 13 5))
  else if fld w 13 10 = 0 ∧ fld w 27 5 = 3 ∧ fld w 26 1 = 0 then some (.spos p (bvf w 23 3) (bvf w 8 5))
  else if fld w 8 15 = 0 ∧ fld w 27 5 = 4 then some (.stbar p (bvf w 23 4))
  else if fld w 27 5 = 5 ∧ fld w 23 4 = 0 ∧ fld w 18 5 = 0 then some (.waitc p (bvf w 13 5) (bvf w 8 5))
  else if fld w 27 5 = 6 ∧ fld w 23 4 = 0 then some (.bset p (bvf w 18 5) (bvf w 13 5) (bvf w 8 5))
  else if fld w 8 5 = 0 ∧ fld w 27 5 = 7 ∧ fld w 23 4 = 0 then some (.tcfg p (bvf w 18 5) (bvf w 13 5))
  else if fld w 27 5 = 8 ∧ fld w 23 4 = 0 ∧ fld w 13 10 = 0 then some (.chwait p (bvf w 8 5))
  else if fld w 27 5 = 9 ∧ fld w 23 4 = 0 ∧ fld w 18 5 = 0 then some (.nset p (bvf w 13 5) (bvf w 8 5))
  else if fld w 27 5 = 9 ∧ fld w 23 4 = 1 then some (.nsetF p (bvf w 18 5) (bvf w 13 5) (bvf w 8 5))
  else if fld w 27 5 = 10 ∧ fld w 23 4 = 0 ∧ fld w 18 5 = 0 then some (.nsig p (bvf w 13 5) (bvf w 8 5))
  else if fld w 27 5 = 10 ∧ fld w 23 4 = 1 ∧ fld w 18 5 = 0 then some (.nsigRank p (bvf w 13 5) (bvf w 8 5))
  else if fld w 27 5 = 10 ∧ fld w 23 4 = 2 ∧ fld w 18 5 = 0 then some (.nsigCount p (bvf w 13 5) (bvf w 8 5))
  else if fld w 27 5 = 10 ∧ fld w 23 4 = 3 ∧ fld w 18 5 = 0 then some (.nsigSeq p (bvf w 13 5) (bvf w 8 5))
  else none

/-- Major 0x1D. -/
def decodeMajor1D (w : Nat) : Option Instr :=
  if fld w 27 5 = 0 ∧ fld w 23 4 = 0 ∧ fld w 18 5 = 0 then some (.tmapset (bvf w 13 5) (bvf w 8 5))
  else if fld w 27 5 = 1 ∧ fld w 23 4 = 0 ∧ fld w 18 5 = 0 then some (.tfetch (bvf w 13 5) (bvf w 8 5))
  else if fld w 27 5 = 2 ∧ fld w 23 4 = 0 ∧ fld w 18 5 = 0 then some (.tevict (bvf w 13 5) (bvf w 8 5))
  else if fld w 27 5 = 3 then some (.tlog (bvf w 23 4) (bvf w 18 5) (bvf w 13 5) (bvf w 8 5))
  else if fld w 27 5 = 4 ∧ fld w 23 4 = 0 ∧ fld w 18 5 = 0 then some (.tcompact (bvf w 13 5) (bvf w 8 5))
  else if fld w 27 5 = 5 ∧ fld w 23 4 = 0 ∧ fld w 18 5 = 0 then some (.tstat (bvf w 13 5) (bvf w 8 5))
  else none

/-- Major 0x1E. -/
def decodeMajor1E (w : Nat) : Option Instr :=
  if fld w 27 5 = 0 ∧ fld w 23 4 = 0 ∧ fld w 18 5 = 0 then some (.vpubl (bvf w 13 5) (bvf w 8 5))
  else if fld w 27 5 = 0 ∧ fld w 23 4 = 1 ∧ fld w 18 5 = 0 then some (.vpublWait (bvf w 13 5) (bvf w 8 5))
  else if fld w 27 5 = 0 ∧ fld w 23 4 = 2 then some (.vpublAt (bvf w 18 5) (bvf w 13 5) (bvf w 8 5))
  else if fld w 27 5 = 0 ∧ fld w 23 4 = 3 then some (.vpublWaitAt (bvf w 18 5) (bvf w 13 5) (bvf w 8 5))
  else if fld w 27 5 = 1 ∧ fld w 23 4 = 0 ∧ fld w 18 5 = 0 then some (.toksw (bvf w 13 5) (bvf w 8 5))
  else if fld w 27 5 = 1 ∧ fld w 23 4 = 1 then some (.tokswMin (bvf w 18 5) (bvf w 13 5) (bvf w 8 5))
  else if fld w 8 5 = 0 ∧ fld w 27 5 = 2 ∧ fld w 23 4 = 0 then some (.sttok (bvf w 18 5) (bvf w 13 5))
  else if fld w 27 5 = 3 ∧ fld w 23 4 = 0 ∧ fld w 18 5 = 0 then some (.vpin (bvf w 13 5) (bvf w 8 5))
  else if fld w 27 5 = 4 ∧ fld w 23 4 = 0 ∧ fld w 18 5 = 0 then some (.vunpin (bvf w 13 5) (bvf w 8 5))
  else none

/-- Major 0x1F. -/
def decodeMajor1F (w : Nat) : Option Instr :=
  some (.hint (bvf w 8 24))

/-- Major 0x20. -/
def decodeMajor20 (p : Pre) (w : Nat) : Option Instr :=
  if fld w 28 4 = 0 then some (.vaddVv (vOps p w))
  else if fld w 28 4 = 1 then some (.vsubVv (vOps p w))
  else if fld w 28 4 = 3 then some (.vmulVv (vOps p w))
  else if fld w 28 4 = 4 then some (.vmulhVv (vOps p w))
  else if fld w 28 4 = 5 then some (.vmaccVv (vOps p w))
  else if fld w 28 4 = 6 then some (.vnmsacVv (vOps p w))
  else if fld w 28 4 = 7 then some (.vwaddVv (vOps p w))
  else if fld w 28 4 = 8 then some (.vwmulVv (vOps p w))
  else if fld w 28 4 = 9 then some (.vwmaccVv (vOps p w))
  else if fld w 28 4 = 10 then some (.vnshrVv (vOps p w))
  else if fld w 28 4 = 11 then some (.vsaddVv (vOps p w))
  else if fld w 28 4 = 12 then some (.vssubVv (vOps p w))
  else if fld w 28 4 = 13 then some (.vavgVv (vOps p w))
  else if fld w 28 4 = 14 then some (.vminVv (vOps p w))
  else if fld w 28 4 = 15 then some (.vmaxVv (vOps p w))
  else none

/-- Major 0x21. -/
def decodeMajor21 (p : Pre) (w : Nat) : Option Instr :=
  if fld w 28 4 = 0 then some (.vaddVg (vOps p w))
  else if fld w 28 4 = 1 then some (.vsubVg (vOps p w))
  else if fld w 28 4 = 2 then some (.vrsubVg (vOps p w))
  else if fld w 28 4 = 3 then some (.vmulVg (vOps p w))
  else if fld w 28 4 = 4 then some (.vmulhVg (vOps p w))
  else if fld w 28 4 = 5 then some (.vmaccVg (vOps p w))
  else if fld w 28 4 = 6 then some (.vnmsacVg (vOps p w))
  else if fld w 28 4 = 7 then some (.vwaddVg (vOps p w))
  else if fld w 28 4 = 8 then some (.vwmulVg (vOps p w))
  else if fld w 28 4 = 9 then some (.vwmaccVg (vOps p w))
  else if fld w 28 4 = 10 then some (.vnshrVg (vOps p w))
  else if fld w 28 4 = 11 then some (.vsaddVg (vOps p w))
  else if fld w 28 4 = 12 then some (.vssubVg (vOps p w))
  else if fld w 28 4 = 13 then some (.vavgVg (vOps p w))
  else if fld w 28 4 = 14 then some (.vminVg (vOps p w))
  else if fld w 28 4 = 15 then some (.vmaxVg (vOps p w))
  else none

/-- Major 0x22. -/
def decodeMajor22 (p : Pre) (w : Nat) : Option Instr :=
  if fld w 28 4 = 0 then some (.vaddVi (vOps p w))
  else if fld w 28 4 = 2 then some (.vrsubVi (vOps p w))
  else if fld w 28 4 = 10 then some (.vnshrVi (vOps p w))
  else if fld w 28 4 = 11 then some (.vsaddVi (vOps p w))
  else none

/-- Major 0x23. -/
def decodeMajor23 (p : Pre) (w : Nat) : Option Instr :=
  if fld w 28 4 = 0 then some (.vandVv (vOps p w))
  else if fld w 28 4 = 1 then some (.vorVv (vOps p w))
  else if fld w 28 4 = 2 then some (.vxorVv (vOps p w))
  else if fld w 28 4 = 3 then some (.vshlVv (vOps p w))
  else if fld w 28 4 = 4 then some (.vshrVv (vOps p w))
  else if fld w 28 4 = 5 then some (.vsarVv (vOps p w))
  else if fld w 28 4 = 6 then some (.vmergeVv (vOps p w))
  else if fld w 28 4 = 7 then some (.vmvVv (vOps p w))
  else if fld w 28 4 = 8 then some (.vcmpEqVv (vOps p w))
  else if fld w 28 4 = 9 then some (.vcmpNeVv (vOps p w))
  else if fld w 28 4 = 10 then some (.vcmpLtVv (vOps p w))
  else if fld w 28 4 = 11 then some (.vcmpLeVv (vOps p w))
  else if fld w 28 4 = 12 then some (.vcmpGtVv (vOps p w))
  else if fld w 28 4 = 13 then some (.vcmpGeVv (vOps p w))
  else none

/-- Major 0x24. -/
def decodeMajor24 (p : Pre) (w : Nat) : Option Instr :=
  if fld w 28 4 = 0 then some (.vandVg (vOps p w))
  else if fld w 28 4 = 1 then some (.vorVg (vOps p w))
  else if fld w 28 4 = 2 then some (.vxorVg (vOps p w))
  else if fld w 28 4 = 3 then some (.vshlVg (vOps p w))
  else if fld w 28 4 = 4 then some (.vshrVg (vOps p w))
  else if fld w 28 4 = 5 then some (.vsarVg (vOps p w))
  else if fld w 28 4 = 6 then some (.vmergeVg (vOps p w))
  else if fld w 28 4 = 7 then some (.vmvVg (vOps p w))
  else if fld w 28 4 = 8 then some (.vcmpEqVg (vOps p w))
  else if fld w 28 4 = 9 then some (.vcmpNeVg (vOps p w))
  else if fld w 28 4 = 10 then some (.vcmpLtVg (vOps p w))
  else if fld w 28 4 = 11 then some (.vcmpLeVg (vOps p w))
  else if fld w 28 4 = 12 then some (.vcmpGtVg (vOps p w))
  else if fld w 28 4 = 13 then some (.vcmpGeVg (vOps p w))
  else none

/-- Major 0x25. -/
def decodeMajor25 (p : Pre) (w : Nat) : Option Instr :=
  if fld w 28 4 = 0 then some (.vandVi (vOps p w))
  else if fld w 28 4 = 1 then some (.vorVi (vOps p w))
  else if fld w 28 4 = 2 then some (.vxorVi (vOps p w))
  else if fld w 28 4 = 3 then some (.vshlVi (vOps p w))
  else if fld w 28 4 = 4 then some (.vshrVi (vOps p w))
  else if fld w 28 4 = 5 then some (.vsarVi (vOps p w))
  else if fld w 28 4 = 6 then some (.vmergeVi (vOps p w))
  else if fld w 28 4 = 7 then some (.vmvVi (vOps p w))
  else if fld w 28 4 = 8 then some (.vcmpEqVi (vOps p w))
  else if fld w 28 4 = 9 then some (.vcmpNeVi (vOps p w))
  else if fld w 28 4 = 10 then some (.vcmpLtVi (vOps p w))
  else if fld w 28 4 = 11 then some (.vcmpLeVi (vOps p w))
  else if fld w 28 4 = 12 then some (.vcmpGtVi (vOps p w))
  else if fld w 28 4 = 13 then some (.vcmpGeVi (vOps p w))
  else none

/-- Major 0x26. -/
def decodeMajor26 (p : Pre) (w : Nat) : Option Instr :=
  if fld w 28 4 = 0 then some (.vfaddVv (vOps p w))
  else if fld w 28 4 = 1 then some (.vfsubVv (vOps p w))
  else if fld w 28 4 = 2 then some (.vfmulVv (vOps p w))
  else if fld w 28 4 = 3 then some (.vfmaVv (vOps p w))
  else if fld w 28 4 = 4 then some (.vfnmaVv (vOps p w))
  else if fld w 28 4 = 5 then some (.vfdivVv (vOps p w))
  else if fld w 28 4 = 6 then some (.vfsqrt (vOps p w))
  else if fld w 28 4 = 7 then some (.vfminVv (vOps p w))
  else if fld w 28 4 = 8 then some (.vfmaxVv (vOps p w))
  else if fld w 28 4 = 9 then some (.vfcmpEqVv (vOps p w))
  else if fld w 28 4 = 10 then some (.vfcmpNeVv (vOps p w))
  else if fld w 28 4 = 11 then some (.vfcmpLtVv (vOps p w))
  else if fld w 28 4 = 12 then some (.vfcmpLeVv (vOps p w))
  else if fld w 28 4 = 13 then some (.vfcmpGtVv (vOps p w))
  else if fld w 28 4 = 14 then some (.vfcmpGeVv (vOps p w))
  else if fld w 28 4 = 15 then some (.vfcmpUnVv (vOps p w))
  else none

/-- Major 0x27. -/
def decodeMajor27 (p : Pre) (w : Nat) : Option Instr :=
  if fld w 28 4 = 0 then some (.vfaddVg (vOps p w))
  else if fld w 28 4 = 1 then some (.vfsubVg (vOps p w))
  else if fld w 28 4 = 2 then some (.vfmulVg (vOps p w))
  else if fld w 28 4 = 3 then some (.vfmaVg (vOps p w))
  else if fld w 28 4 = 4 then some (.vfnmaVg (vOps p w))
  else if fld w 28 4 = 5 then some (.vfdivVg (vOps p w))
  else if fld w 28 4 = 7 then some (.vfminVg (vOps p w))
  else if fld w 28 4 = 8 then some (.vfmaxVg (vOps p w))
  else if fld w 28 4 = 9 then some (.vfcmpEqVg (vOps p w))
  else if fld w 28 4 = 10 then some (.vfcmpNeVg (vOps p w))
  else if fld w 28 4 = 11 then some (.vfcmpLtVg (vOps p w))
  else if fld w 28 4 = 12 then some (.vfcmpLeVg (vOps p w))
  else if fld w 28 4 = 13 then some (.vfcmpGtVg (vOps p w))
  else if fld w 28 4 = 14 then some (.vfcmpGeVg (vOps p w))
  else if fld w 28 4 = 15 then some (.vfcmpUnVg (vOps p w))
  else none

/-- Major 0x28. -/
def decodeMajor28 (p : Pre) (w : Nat) : Option Instr :=
  if fld w 28 4 = 0 then some (.mand (vOps p w))
  else if fld w 28 4 = 1 then some (.mor (vOps p w))
  else if fld w 28 4 = 2 then some (.mxor (vOps p w))
  else if fld w 28 4 = 3 then some (.mnot (vOps p w))
  else if fld w 28 4 = 4 then some (.mpopc (vOps p w))
  else if fld w 28 4 = 5 then some (.mffs (vOps p w))
  else if fld w 28 4 = 6 then some (.mset (vOps p w))
  else if fld w 28 4 = 7 then some (.vreconf (vOps p w))
  else if fld w 28 4 = 8 then some (.vslideu (vOps p w))
  else if fld w 28 4 = 9 then some (.vslided (vOps p w))
  else if fld w 28 4 = 10 then some (.vgather (vOps p w))
  else if fld w 28 4 = 11 then some (.vcompress (vOps p w))
  else if fld w 28 4 = 12 then some (.viota (vOps p w))
  else if fld w 28 4 = 13 then some (.vext (vOps p w))
  else if fld w 28 4 = 14 then some (.vins (vOps p w))
  else none

/-- Major 0x29. -/
def decodeMajor29 (p : Pre) (w : Nat) : Option Instr :=
  if fld w 28 4 = 0 then some (.vredsum (vOps p w))
  else if fld w 28 4 = 1 then some (.vredmax (vOps p w))
  else if fld w 28 4 = 2 then some (.vredmin (vOps p w))
  else if fld w 28 4 = 3 then some (.vfredsum (vOps p w))
  else if fld w 28 4 = 4 then some (.vfredmax (vOps p w))
  else if fld w 28 4 = 5 then some (.vfredmin (vOps p w))
  else if fld w 28 4 = 6 then some (.vfredms (vOps p w))
  else if fld w 28 4 = 7 then some (.vfcvt (vOps p w))
  else if fld w 28 4 = 8 then some (.vfcvtEf (vOps p w))
  else if fld w 28 4 = 12 then some (.vrec (vOps p w))
  else if fld w 28 4 = 13 then some (.vendrec (vOps p w))
  else if fld w 28 4 = 14 then some (.vreplay (vOps p w))
  else none

/-- Major 0x2A. -/
def decodeMajor2A (p : Pre) (w : Nat) : Option Instr :=
  if fld w 24 4 = 0 ∧ fld w 28 1 = 0 then some (.aalloc (xOps p w))
  else if fld w 24 4 = 0 ∧ fld w 28 1 = 1 then some (.aallocWait (xOps p w))
  else if fld w 24 4 = 1 then some (.afree (xOps p w))
  else if fld w 24 4 = 2 then some (.aclr (xOps p w))
  else if fld w 24 4 = 3 then some (.ldws (xOps p w))
  else if fld w 24 4 = 4 then some (.swpl (xOps p w))
  else if fld w 24 4 = 5 then some (.mstream (xOps p w))
  else if fld w 24 4 = 6 then some (.mopa (xOps p w))
  else if fld w 24 4 = 7 then some (.mops (xOps p w))
  else if fld w 24 4 = 8 then some (.axtr (xOps p w))
  else if fld w 24 4 = 9 then some (.axtc (xOps p w))
  else if fld w 24 4 = 10 then some (.asave (xOps p w))
  else if fld w 24 4 = 11 then some (.aload (xOps p w))
  else if fld w 24 4 = 12 then some (.aaddi (xOps p w))
  else none

/-- Major 0x2B. -/
def decodeMajor2B (p : Pre) (w : Nat) : Option Instr :=
  if fld w 24 4 = 0 then some (.trow (xOps p w))
  else if fld w 24 4 = 1 then some (.tcol (xOps p w))
  else if fld w 24 4 = 2 then some (.tld (xOps p w))
  else if fld w 24 4 = 3 then some (.tst (xOps p w))
  else none

/-- Major 0x2C. -/
def decodeMajor2C (p : Pre) (w : Nat) : Option Instr :=
  if fld w 29 3 = 0 then some (.vld (mOps p w))
  else if fld w 29 3 = 1 then some (.vlds (mOps p w))
  else if fld w 29 3 = 2 then some (.vldx (mOps p w))
  else if fld w 29 3 = 3 then some (.vldseg (mOps p w))
  else if fld w 29 3 = 4 then some (.vldff (mOps p w))
  else if fld w 29 3 = 5 then some (.cbld (mOps p w))
  else if fld w 29 3 = 6 then some (.vfill (mOps p w))
  else none

/-- Major 0x2D. -/
def decodeMajor2D (p : Pre) (w : Nat) : Option Instr :=
  if fld w 29 3 = 0 then some (.vst (mOps p w))
  else if fld w 29 3 = 1 then some (.vsts (mOps p w))
  else if fld w 29 3 = 2 then some (.vstx (mOps p w))
  else if fld w 29 3 = 3 then some (.vstseg (mOps p w))
  else if fld w 29 3 = 4 then some (.vspill (mOps p w))
  else none

/-- Major 0x2E. -/
def decodeMajor2E (p : Pre) (w : Nat) : Option Instr :=
  if fld w 29 3 = 0 then some (.ldpSum (mOps p w))
  else if fld w 29 3 = 1 then some (.ldpMax (mOps p w))
  else if fld w 29 3 = 2 then some (.ldpMin (mOps p w))
  else if fld w 29 3 = 3 then some (.ldpMaxsum (mOps p w))
  else if fld w 29 3 = 4 then some (.ldpAnd (mOps p w))
  else if fld w 29 3 = 5 then some (.ldpOr (mOps p w))
  else if fld w 29 3 = 6 then some (.ldpXor (mOps p w))
  else if fld w 29 3 = 7 then some (.ldpFirst (mOps p w))
  else none

/-- Major 0x2F. -/
def decodeMajor2F (p : Pre) (w : Nat) : Option Instr :=
  if fld w 29 3 = 0 then some (.stp (mOps p w))
  else if fld w 29 3 = 1 then some (.chrun (mOps p w))
  else none

/-- Major 0x30. -/
def decodeMajor30 (p : Pre) (w : Nat) : Option Instr :=
  if fld w 29 3 = 0 then some (.vamoAdd (mOps p w))
  else if fld w 29 3 = 1 then some (.vamoMin (mOps p w))
  else if fld w 29 3 = 2 then some (.vamoMax (mOps p w))
  else if fld w 29 3 = 3 then some (.vamoAnd (mOps p w))
  else if fld w 29 3 = 4 then some (.vamoOr (mOps p w))
  else if fld w 29 3 = 5 then some (.vamoXor (mOps p w))
  else if fld w 29 3 = 6 then some (.vamoSwap (mOps p w))
  else if fld w 29 3 = 7 then some (.vamoCas (mOps p w))
  else none

/-- Major 0x31. -/
def decodeMajor31 (p : Pre) (w : Nat) : Option Instr :=
  if fld w 29 3 = 0 then some (.vamooAdd (mOps p w))
  else if fld w 29 3 = 1 then some (.vamooMin (mOps p w))
  else if fld w 29 3 = 2 then some (.vamooMax (mOps p w))
  else if fld w 29 3 = 3 then some (.vamooAnd (mOps p w))
  else if fld w 29 3 = 4 then some (.vamooOr (mOps p w))
  else if fld w 29 3 = 5 then some (.vamooXor (mOps p w))
  else if fld w 29 3 = 6 then some (.vamooSwap (mOps p w))
  else if fld w 29 3 = 7 then some (.vamooCas (mOps p w))
  else none

/-- Major 0x32. -/
def decodeMajor32 (p : Pre) (w : Nat) : Option Instr :=
  if fld w 24 4 = 0 then some (.tmov (xOps p w))
  else if fld w 24 4 = 1 then some (.tokp (xOps p w))
  else if fld w 24 4 = 2 then some (.tokw (xOps p w))
  else if fld w 24 4 = 3 then some (.vfence (xOps p w))
  else if fld w 24 4 = 4 then some (.vfenceD (xOps p w))
  else none

/-- Major 0x33. -/
def decodeMajor33 (p : Pre) (w : Nat) : Option Instr :=
  some (.vcoll (kOps p w))

/-- Major 0x34. -/
def decodeMajor34 (p : Pre) (w : Nat) : Option Instr :=
  if fld w 29 3 = 0 then some (.vsend (mOps p w))
  else if fld w 29 3 = 1 then some (.vrecv (mOps p w))
  else none

/-- A base word without a prefix word or with one that its major admits (R59, R68): `x` is the payload of an EXT word. -/
def decodeBase (p : Pre) (x : Ext) (w : Nat) : Option Instr :=
  if fld w 2 6 = 0 then (if p ≠ .none ∨ x.isSome then none else decodeMajor00 w)
  else if fld w 2 6 = 1 then (if p ≠ .none then none else decodeMajor01 x w)
  else if fld w 2 6 = 2 then (if p ≠ .none then none else decodeMajor02 x w)
  else if fld w 2 6 = 3 then (if p ≠ .none then none else decodeMajor03 x w)
  else if fld w 2 6 = 4 then (if p ≠ .none then none else decodeMajor04 x w)
  else if fld w 2 6 = 5 then (if p ≠ .none then none else decodeMajor05 x w)
  else if fld w 2 6 = 6 then (if p ≠ .none ∨ x.isSome then none else decodeMajor06 w)
  else if fld w 2 6 = 7 then (if p ≠ .none then none else decodeMajor07 x w)
  else if fld w 2 6 = 8 then (if p ≠ .none then none else decodeMajor08 x w)
  else if fld w 2 6 = 9 then (if p ≠ .none then none else decodeMajor09 x w)
  else if fld w 2 6 = 10 then (if p ≠ .none then none else decodeMajor0A x w)
  else if fld w 2 6 = 11 then (if p ≠ .none ∨ x.isSome then none else decodeMajor0B w)
  else if fld w 2 6 = 12 then (if p ≠ .none ∨ x.isSome then none else decodeMajor0C w)
  else if fld w 2 6 = 13 then (if p ≠ .none then none else decodeMajor0D x w)
  else if fld w 2 6 = 14 then (if p ≠ .none then none else decodeMajor0E x w)
  else if fld w 2 6 = 15 then (if p ≠ .none then none else decodeMajor0F x w)
  else if fld w 2 6 = 16 then (if p ≠ .none then none else decodeMajor10 x w)
  else if fld w 2 6 = 17 then (if p ≠ .none then none else decodeMajor11 x w)
  else if fld w 2 6 = 18 then (if p ≠ .none then none else decodeMajor12 x w)
  else if fld w 2 6 = 19 then (if p ≠ .none then none else decodeMajor13 x w)
  else if fld w 2 6 = 20 then (if p ≠ .none then none else decodeMajor14 x w)
  else if fld w 2 6 = 21 then (if p ≠ .none ∨ x.isSome then none else decodeMajor15 w)
  else if fld w 2 6 = 22 then (if p ≠ .none ∨ x.isSome then none else decodeMajor16 w)
  else if fld w 2 6 = 23 then (if p ≠ .none ∨ x.isSome then none else decodeMajor17 w)
  else if fld w 2 6 = 24 then (if p ≠ .none ∨ x.isSome then none else decodeMajor18 w)
  else if fld w 2 6 = 25 then (if p ≠ .none ∨ x.isSome then none else decodeMajor19 w)
  else if fld w 2 6 = 26 then (if p ≠ .none ∨ x.isSome then none else decodeMajor1A w)
  else if fld w 2 6 = 27 then (if p ≠ .none then none else decodeMajor1B x w)
  else if fld w 2 6 = 28 then (if x.isSome then none else decodeMajor1C p w)
  else if fld w 2 6 = 29 then (if p ≠ .none ∨ x.isSome then none else decodeMajor1D w)
  else if fld w 2 6 = 30 then (if p ≠ .none ∨ x.isSome then none else decodeMajor1E w)
  else if fld w 2 6 = 31 then (if p ≠ .none ∨ x.isSome then none else decodeMajor1F w)
  else if fld w 2 6 = 32 then (if x.isSome then none else decodeMajor20 p w)
  else if fld w 2 6 = 33 then (if x.isSome then none else decodeMajor21 p w)
  else if fld w 2 6 = 34 then (if x.isSome then none else decodeMajor22 p w)
  else if fld w 2 6 = 35 then (if x.isSome then none else decodeMajor23 p w)
  else if fld w 2 6 = 36 then (if x.isSome then none else decodeMajor24 p w)
  else if fld w 2 6 = 37 then (if x.isSome then none else decodeMajor25 p w)
  else if fld w 2 6 = 38 then (if x.isSome then none else decodeMajor26 p w)
  else if fld w 2 6 = 39 then (if x.isSome then none else decodeMajor27 p w)
  else if fld w 2 6 = 40 then (if x.isSome then none else decodeMajor28 p w)
  else if fld w 2 6 = 41 then (if x.isSome then none else decodeMajor29 p w)
  else if fld w 2 6 = 42 then (if x.isSome then none else decodeMajor2A p w)
  else if fld w 2 6 = 43 then (if x.isSome then none else decodeMajor2B p w)
  else if fld w 2 6 = 44 then (if x.isSome then none else decodeMajor2C p w)
  else if fld w 2 6 = 45 then (if x.isSome then none else decodeMajor2D p w)
  else if fld w 2 6 = 46 then (if x.isSome then none else decodeMajor2E p w)
  else if fld w 2 6 = 47 then (if x.isSome then none else decodeMajor2F p w)
  else if fld w 2 6 = 48 then (if x.isSome then none else decodeMajor30 p w)
  else if fld w 2 6 = 49 then (if x.isSome then none else decodeMajor31 p w)
  else if fld w 2 6 = 50 then (if x.isSome then none else decodeMajor32 p w)
  else if fld w 2 6 = 51 then (if x.isSome then none else decodeMajor33 p w)
  else if fld w 2 6 = 52 then (if x.isSome then none else decodeMajor34 p w)
  else none

/-- A 16-bit parcel (R72, R73). -/
def decodeCompact (w : Nat) : Option Instr :=
  if fld w 0 6 = 4 ∧ fld w 6 5 = 0 then some (.cHint (bvf w 11 5))
  else if fld w 0 6 = 4 then some (.cAddi (bvf w 11 5) (bvf w 6 5))
  else if fld w 0 6 = 8 then some (.cAdd (bvf w 11 5) (bvf w 6 5))
  else if fld w 0 6 = 12 then some (.cSub (bvf w 11 5) (bvf w 6 5))
  else if fld w 0 6 = 16 then some (.cAnd (bvf w 11 5) (bvf w 6 5))
  else if fld w 0 6 = 20 then some (.cOr (bvf w 11 5) (bvf w 6 5))
  else if fld w 0 6 = 24 then some (.cXor (bvf w 11 5) (bvf w 6 5))
  else if fld w 0 6 = 28 then some (.cShli (bvf w 11 5) (bvf w 6 5))
  else if fld w 0 6 = 32 then some (.cShri (bvf w 11 5) (bvf w 6 5))
  else if fld w 0 6 = 36 then some (.cSari (bvf w 11 5) (bvf w 6 5))
  else if fld w 0 6 = 40 then some (.cLdI64 (bvf w 11 5) (bvf w 6 5))
  else if fld w 0 6 = 44 then some (.cStI64 (bvf w 11 5) (bvf w 6 5))
  else if fld w 0 6 = 48 then some (.cBeq (bvf w 11 5) (bvf w 6 5))
  else if fld w 0 6 = 52 then some (.cBne (bvf w 11 5) (bvf w 6 5))
  else if fld w 0 6 = 56 ∧ fld w 11 5 = 0 then some (.cJr (bvf w 6 5))
  else if fld w 0 6 = 56 ∧ fld w 11 5 = 1 then some (.cJalr (bvf w 6 5))
  else if fld w 0 6 = 60 then some (.cMv (bvf w 11 5) (bvf w 6 5))
  else if fld w 0 6 = 6 then some (.cvVaddI32 (bvf w 11 5) (bvf w 6 5))
  else if fld w 0 6 = 10 then some (.cvVsubI32 (bvf w 11 5) (bvf w 6 5))
  else if fld w 0 6 = 14 then some (.cvVmulI32 (bvf w 11 5) (bvf w 6 5))
  else if fld w 0 6 = 18 then some (.cvVmaccI32 (bvf w 11 5) (bvf w 6 5))
  else if fld w 0 6 = 22 then some (.cvVmaxI32 (bvf w 11 5) (bvf w 6 5))
  else if fld w 0 6 = 26 then some (.cvVxorI32 (bvf w 11 5) (bvf w 6 5))
  else if fld w 0 6 = 30 then some (.cvVfaddF32 (bvf w 11 5) (bvf w 6 5))
  else if fld w 0 6 = 34 then some (.cvVfmulF32 (bvf w 11 5) (bvf w 6 5))
  else if fld w 0 6 = 38 then some (.cvVfmaF32 (bvf w 11 5) (bvf w 6 5))
  else if fld w 0 6 = 42 then some (.cvVfmaxF32 (bvf w 11 5) (bvf w 6 5))
  else if fld w 0 6 = 46 then some (.cvVfaddBf16 (bvf w 11 5) (bvf w 6 5))
  else if fld w 0 6 = 50 then some (.cvVfmulBf16 (bvf w 11 5) (bvf w 6 5))
  else if fld w 0 6 = 54 then some (.cvVfmaBf16 (bvf w 11 5) (bvf w 6 5))
  else if fld w 0 6 = 58 then some (.cvVfmaxBf16 (bvf w 11 5) (bvf w 6 5))
  else none

/-- The length in bytes that the low two bits of the first parcel give (R47). -/
def lengthOf (w : Nat) : Nat := if fld w 0 2 = 1 then 4 else if fld w 0 2 = 3 then 8 else 2

/-- The fields of an instruction whose bits are `w`, first parcel lowest, before the checks of R76. -/
def decodeFields (w : Nat) : Option Instr :=
  if lengthOf w = 2 then decodeCompact (fld w 0 16)
  else if lengthOf w = 4 then decodeBase .none none (fld w 0 32)
  else
    let b := fld w 32 32
    if fld b 0 2 ≠ 1 then none
    else if fld w 2 6 = 3 then decodeBase .none (some (bvf w 8 24)) b
    else match decodePre (fld w 0 32) with
      | some p => decodeBase p none b
      | none => none

/-- Decoding (R76): the instruction whose bits are `w`, or none, which raises Illegal Instruction. -/
def decode (w : Nat) : Option Instr :=
  match decodeFields w with
  | some i => if i.wellFormed then some i else none
  | none => none

/-- An instruction read from bytes in memory order, with the bytes after it (R47, R48). -/
def decodeBytes (bs : List Byte) : Option (Instr × List Byte) :=
  let w := Machine.ofBytesLE (bs.take 8)
  if bs.length < 2 ∨ bs.length < lengthOf w then none
  else (decode (w % 2 ^ (8 * lengthOf w))).map fun i => (i, bs.drop (lengthOf w))

/-- The instruction an opcode-table word stands for: bits above `nbits` are zero. -/
def decodeTableWord (nbits w : Nat) : Option Instr :=
  (decodeBytes (Machine.bytesLE 8 (w % 2 ^ nbits))).map Prod.fst

/-! The encoder -/

/-- Bits placed at `lo`. -/
def at' (lo v : Nat) : Nat := v * 2 ^ lo

def encBool (b : Bool) : Nat := if b then 1 else 0

/-- A prefix word (R68). -/
def encodePre : Pre → Option Nat
  | .none => none
  | .mod mb ma => some (3 + at' 8 ma.toNat + at' 20 mb.toNat)
  | .hireg ms ch bh ah dh t8 =>
    some (3 + at' 2 1 + at' 8 t8.toNat + at' 16 (encBool dh) + at' 17 (encBool ah) + at' 18 (encBool bh)
      + at' 19 (encBool ch) + at' 20 ms.toNat)
  | .tokmod mb ms t8 => some (3 + at' 2 2 + at' 8 t8.toNat + at' 16 ms.toNat + at' 20 mb.toNat)
  | .tile tx t8 => some (3 + at' 2 4 + at' 8 t8.toNat + at' 16 tx.toNat)
  | .scale g => some (3 + at' 2 5 + at' 8 g.toNat)

/-- An encoded instruction: its length in bytes and its bits, first parcel lowest. -/
structure Code where
  len : Nat
  bits : Nat
  deriving DecidableEq, Repr

/-- A base word behind an optional prefix word (R67). -/
def withPrefixWord (p : Option Nat) (w : Nat) : Code :=
  match p with
  | some x => ⟨8, x + w * 2 ^ 32⟩
  | none => ⟨4, w⟩

def withExt (x : Ext) (w : Nat) : Code :=
  withPrefixWord (x.map fun h => 3 + at' 2 3 + at' 8 h.toNat) w

def encV (base : Nat) (o : VOps) : Code :=
  withPrefixWord (encodePre o.pre) (base + at' 8 o.d.toNat + at' 13 o.a.toNat + at' 18 o.b.toNat + at' 23 (encBool o.c)
    + at' 24 (encBool o.vm) + at' 25 o.e.toNat)
def encM (base : Nat) (o : MOps) : Code :=
  withPrefixWord (encodePre o.pre) (base + at' 8 o.d.toNat + at' 13 o.a.toNat + at' 18 o.b.toNat + at' 23 (encBool o.c)
    + at' 24 (encBool o.vm) + at' 25 o.f.toNat)
def encX (base : Nat) (o : XOps) : Code :=
  withPrefixWord (encodePre o.pre) (base + at' 8 o.d.toNat + at' 13 o.a.toNat + at' 18 o.b.toNat + at' 23 (encBool o.c)
    + at' 28 o.q.toNat)
def encK (base : Nat) (o : KOps) : Code :=
  withPrefixWord (encodePre o.pre) (base + at' 8 o.d.toNat + at' 13 o.a.toNat + at' 18 o.b.toNat + at' 23 (encBool o.c)
    + at' 24 o.kind.toNat + at' 27 o.opr.toNat + at' 29 o.t.toNat)

/-- The words of an instruction; none for an event or a command, which has no encoding. -/
def encode : Instr → Option Code
  | .add b a d => some (⟨4, 0x1 + at' 18 b.toNat + at' 13 a.toNat + at' 8 d.toNat⟩)
  | .sub b a d => some (⟨4, 0x8000001 + at' 18 b.toNat + at' 13 a.toNat + at' 8 d.toNat⟩)
  | .mul b a d => some (⟨4, 0x10000001 + at' 18 b.toNat + at' 13 a.toNat + at' 8 d.toNat⟩)
  | .mulh b a d => some (⟨4, 0x18000001 + at' 18 b.toNat + at' 13 a.toNat + at' 8 d.toNat⟩)
  | .mulhw b a d => some (⟨4, 0x20000001 + at' 18 b.toNat + at' 13 a.toNat + at' 8 d.toNat⟩)
  | .div b a d => some (⟨4, 0x28000001 + at' 18 b.toNat + at' 13 a.toNat + at' 8 d.toNat⟩)
  | .divw b a d => some (⟨4, 0x30000001 + at' 18 b.toNat + at' 13 a.toNat + at' 8 d.toNat⟩)
  | .rem b a d => some (⟨4, 0x38000001 + at' 18 b.toNat + at' 13 a.toNat + at' 8 d.toNat⟩)
  | .remw b a d => some (⟨4, 0x40000001 + at' 18 b.toNat + at' 13 a.toNat + at' 8 d.toNat⟩)
  | .and b a d => some (⟨4, 0x48000001 + at' 18 b.toNat + at' 13 a.toNat + at' 8 d.toNat⟩)
  | .or b a d => some (⟨4, 0x50000001 + at' 18 b.toNat + at' 13 a.toNat + at' 8 d.toNat⟩)
  | .xor b a d => some (⟨4, 0x58000001 + at' 18 b.toNat + at' 13 a.toNat + at' 8 d.toNat⟩)
  | .shl b a d => some (⟨4, 0x60000001 + at' 18 b.toNat + at' 13 a.toNat + at' 8 d.toNat⟩)
  | .shr b a d => some (⟨4, 0x68000001 + at' 18 b.toNat + at' 13 a.toNat + at' 8 d.toNat⟩)
  | .sar b a d => some (⟨4, 0x70000001 + at' 18 b.toNat + at' 13 a.toNat + at' 8 d.toNat⟩)
  | .slt b a d => some (⟨4, 0x78000001 + at' 18 b.toNat + at' 13 a.toNat + at' 8 d.toNat⟩)
  | .sltw b a d => some (⟨4, 0x80000001 + at' 18 b.toNat + at' 13 a.toNat + at' 8 d.toNat⟩)
  | .min b a d => some (⟨4, 0x88000001 + at' 18 b.toNat + at' 13 a.toNat + at' 8 d.toNat⟩)
  | .max b a d => some (⟨4, 0x90000001 + at' 18 b.toNat + at' 13 a.toNat + at' 8 d.toNat⟩)
  | .minw b a d => some (⟨4, 0x98000001 + at' 18 b.toNat + at' 13 a.toNat + at' 8 d.toNat⟩)
  | .maxw b a d => some (⟨4, 0xA0000001 + at' 18 b.toNat + at' 13 a.toNat + at' 8 d.toNat⟩)
  | .clz a d => some (⟨4, 0xA8000001 + at' 13 a.toNat + at' 8 d.toNat⟩)
  | .ctz a d => some (⟨4, 0xB0000001 + at' 13 a.toNat + at' 8 d.toNat⟩)
  | .popc a d => some (⟨4, 0xB8000001 + at' 13 a.toNat + at' 8 d.toNat⟩)
  | .addi x i a d => some (withExt x (0x5 + at' 18 i.toNat + at' 13 a.toNat + at' 8 d.toNat))
  | .andi x i a d => some (withExt x (0x9 + at' 18 i.toNat + at' 13 a.toNat + at' 8 d.toNat))
  | .ori x i a d => some (withExt x (0xD + at' 18 i.toNat + at' 13 a.toNat + at' 8 d.toNat))
  | .xori x i a d => some (withExt x (0x11 + at' 18 i.toNat + at' 13 a.toNat + at' 8 d.toNat))
  | .slti x i a d => some (withExt x (0x15 + at' 18 i.toNat + at' 13 a.toNat + at' 8 d.toNat))
  | .shli n a d => some (⟨4, 0x19 + at' 18 n.toNat + at' 13 a.toNat + at' 8 d.toNat⟩)
  | .shri n a d => some (⟨4, 0x1000019 + at' 18 n.toNat + at' 13 a.toNat + at' 8 d.toNat⟩)
  | .sari n a d => some (⟨4, 0x2000019 + at' 18 n.toNat + at' 13 a.toNat + at' 8 d.toNat⟩)
  | .lui x i d => some (withExt x (0x1D + at' 13 i.toNat + at' 8 d.toNat))
  | .addpc x i d => some (withExt x (0x21 + at' 13 i.toNat + at' 8 d.toNat))
  | .ld x i w a d => some (withExt x (0x25 + at' 21 i.toNat + at' 18 w.toNat + at' 13 a.toNat + at' 8 d.toNat))
  | .st x i w b a j => some (withExt x (0x29 + at' 26 i.toNat + at' 23 w.toNat + at' 18 b.toNat + at' 13 a.toNat + at' 8 j.toNat))
  | .ldAcq s w a d => some (⟨4, 0x2D + at' 26 s.toNat + at' 23 w.toNat + at' 13 a.toNat + at' 8 d.toNat⟩)
  | .stRel s w b a => some (⟨4, 0x2000002D + at' 26 s.toNat + at' 23 w.toNat + at' 18 b.toNat + at' 13 a.toNat⟩)
  | .amoAdd f b a d => some (⟨4, 0x31 + at' 27 f.toNat + at' 18 b.toNat + at' 13 a.toNat + at' 8 d.toNat⟩)
  | .amoMin f b a d => some (⟨4, 0x800031 + at' 27 f.toNat + at' 18 b.toNat + at' 13 a.toNat + at' 8 d.toNat⟩)
  | .amoMax f b a d => some (⟨4, 0x1000031 + at' 27 f.toNat + at' 18 b.toNat + at' 13 a.toNat + at' 8 d.toNat⟩)
  | .amoAnd f b a d => some (⟨4, 0x1800031 + at' 27 f.toNat + at' 18 b.toNat + at' 13 a.toNat + at' 8 d.toNat⟩)
  | .amoOr f b a d => some (⟨4, 0x2000031 + at' 27 f.toNat + at' 18 b.toNat + at' 13 a.toNat + at' 8 d.toNat⟩)
  | .amoXor f b a d => some (⟨4, 0x2800031 + at' 27 f.toNat + at' 18 b.toNat + at' 13 a.toNat + at' 8 d.toNat⟩)
  | .amoSwap f b a d => some (⟨4, 0x3000031 + at' 27 f.toNat + at' 18 b.toNat + at' 13 a.toNat + at' 8 d.toNat⟩)
  | .amoCas f b a d => some (⟨4, 0x3800031 + at' 27 f.toNat + at' 18 b.toNat + at' 13 a.toNat + at' 8 d.toNat⟩)
  | .amox f b a => some (⟨4, 0x4000031 + at' 27 f.toNat + at' 18 b.toNat + at' 13 a.toNat⟩)
  | .amoReply _ => none
  | .beq x i b a j => some (withExt x (0x35 + at' 23 i.toNat + at' 18 b.toNat + at' 13 a.toNat + at' 8 j.toNat))
  | .bne x i b a j => some (withExt x (0x39 + at' 23 i.toNat + at' 18 b.toNat + at' 13 a.toNat + at' 8 j.toNat))
  | .blt x i b a j => some (withExt x (0x3D + at' 23 i.toNat + at' 18 b.toNat + at' 13 a.toNat + at' 8 j.toNat))
  | .bge x i b a j => some (withExt x (0x41 + at' 23 i.toNat + at' 18 b.toNat + at' 13 a.toNat + at' 8 j.toNat))
  | .bltw x i b a j => some (withExt x (0x45 + at' 23 i.toNat + at' 18 b.toNat + at' 13 a.toNat + at' 8 j.toNat))
  | .bgew x i b a j => some (withExt x (0x49 + at' 23 i.toNat + at' 18 b.toNat + at' 13 a.toNat + at' 8 j.toNat))
  | .jal x i d => some (withExt x (0x4D + at' 13 i.toNat + at' 8 d.toNat))
  | .jalr x i a d => some (withExt x (0x51 + at' 18 i.toNat + at' 13 a.toNat + at' 8 d.toNat))
  | .loopn s b a d => some (⟨4, 0x55 + at' 23 s.toNat + at' 18 b.toNat + at' 13 a.toNat + at' 8 d.toNat⟩)
  | .fadd r b a d => some (⟨4, 0x59 + at' 23 r.toNat + at' 18 b.toNat + at' 13 a.toNat + at' 8 d.toNat⟩)
  | .fsub r b a d => some (⟨4, 0x8000059 + at' 23 r.toNat + at' 18 b.toNat + at' 13 a.toNat + at' 8 d.toNat⟩)
  | .fmul r b a d => some (⟨4, 0x10000059 + at' 23 r.toNat + at' 18 b.toNat + at' 13 a.toNat + at' 8 d.toNat⟩)
  | .fdiv r b a d => some (⟨4, 0x18000059 + at' 23 r.toNat + at' 18 b.toNat + at' 13 a.toNat + at' 8 d.toNat⟩)
  | .fsqrt r a d => some (⟨4, 0x20000059 + at' 23 r.toNat + at' 13 a.toNat + at' 8 d.toNat⟩)
  | .fmin b a d => some (⟨4, 0x28000059 + at' 18 b.toNat + at' 13 a.toNat + at' 8 d.toNat⟩)
  | .fmax b a d => some (⟨4, 0x30000059 + at' 18 b.toNat + at' 13 a.toNat + at' 8 d.toNat⟩)
  | .fcmp c b a d => some (⟨4, 0x38000059 + at' 23 c.toNat + at' 18 b.toNat + at' 13 a.toNat + at' 8 d.toNat⟩)
  | .fcvt r b a d => some (⟨4, 0x40000059 + at' 23 r.toNat + at' 18 b.toNat + at' 13 a.toNat + at' 8 d.toNat⟩)
  | .fclass a d => some (⟨4, 0x48000059 + at' 13 a.toNat + at' 8 d.toNat⟩)
  | .fma c b a d => some (⟨4, 0x5D + at' 23 c.toNat + at' 18 b.toNat + at' 13 a.toNat + at' 8 d.toNat⟩)
  | .mfs b d => some (⟨4, 0x61 + at' 18 b.toNat + at' 8 d.toNat⟩)
  | .mts b a => some (⟨4, 0x8000061 + at' 18 b.toNat + at' 13 a.toNat⟩)
  | .mtsFrm a => some (⟨4, 0x8000061 + at' 13 a.toNat⟩)
  | .mtsFflags a => some (⟨4, 0x8080061 + at' 13 a.toNat⟩)
  | .mtsSat a => some (⟨4, 0x80C0061 + at' 13 a.toNat⟩)
  | .mtsEfc a => some (⟨4, 0x8100061 + at' 13 a.toNat⟩)
  | .mtsTstat a => some (⟨4, 0x8180061 + at' 13 a.toNat⟩)
  | .mtsPrio a => some (⟨4, 0x81C0061 + at' 13 a.toNat⟩)
  | .mtsWshare a => some (⟨4, 0x8200061 + at' 13 a.toNat⟩)
  | .mtsAspace a => some (⟨4, 0x8240061 + at' 13 a.toNat⟩)
  | .mtsIshape a => some (⟨4, 0x8300061 + at' 13 a.toNat⟩)
  | .trap b => some (⟨4, 0x10000061 + at' 18 b.toNat⟩)
  | .eret => some (⟨4, 0x18000061⟩)
  | .halt => some (⟨4, 0x20000061⟩)
  | .fence s => some (⟨4, 0x28000061 + at' 23 s.toNat⟩)
  | .fenceComplete _ => none
  | .iflush b a => some (⟨4, 0x30000061 + at' 18 b.toNat + at' 13 a.toNat⟩)
  | .isync => some (⟨4, 0x38000061⟩)
  | .isyncComplete _ => none
  | .tlbinv b a => some (⟨4, 0x40000061 + at' 18 b.toNat + at' 13 a.toNat⟩)
  | .tlbinvA a => some (⟨4, 0x48000061 + at' 13 a.toNat⟩)
  | .tlbinvComplete _ => none
  | .spawn a d => some (⟨4, 0x65 + at' 13 a.toNat + at' 8 d.toNat⟩)
  | .exit => some (⟨4, 0x8000065⟩)
  | .join a d => some (⟨4, 0x10000065 + at' 13 a.toNat + at' 8 d.toNat⟩)
  | .leave a d => some (⟨4, 0x18000065 + at' 13 a.toNat + at' 8 d.toNat⟩)
  | .barg a d => some (⟨4, 0x20000065 + at' 13 a.toNat + at' 8 d.toNat⟩)
  | .staggeredRelease _ => none
  | .yield a d => some (⟨4, 0x28000065 + at' 13 a.toNat + at' 8 d.toNat⟩)
  | .wpush a d => some (⟨4, 0x30000065 + at' 13 a.toNat + at' 8 d.toNat⟩)
  | .wpop d => some (⟨4, 0x38000065 + at' 8 d.toNat⟩)
  | .wsteal a d => some (⟨4, 0x40000065 + at' 13 a.toNat + at' 8 d.toNat⟩)
  | .claim b a d => some (⟨4, 0x48000065 + at' 18 b.toNat + at' 13 a.toNat + at' 8 d.toNat⟩)
  | .waitw s b a d => some (⟨4, 0x50000065 + at' 23 s.toNat + at' 18 b.toNat + at' 13 a.toNat + at' 8 d.toNat⟩)
  | .waitwWake _ => none
  | .waitt a d => some (⟨4, 0x58000065 + at' 13 a.toNat + at' 8 d.toNat⟩)
  | .waittWake _ => none
  | .vcfg b a d => some (⟨4, 0x69 + at' 18 b.toNat + at' 13 a.toNat + at' 8 d.toNat⟩)
  | .vcfgVl d => some (⟨4, 0x800069 + at' 8 d.toNat⟩)
  | .vcfgVtype d => some (⟨4, 0x1000069 + at' 8 d.toNat⟩)
  | .vcfgVlmax d => some (⟨4, 0x1800069 + at' 8 d.toNat⟩)
  | .vcfgVcp d => some (⟨4, 0x2000069 + at' 8 d.toNat⟩)
  | .vcfgVstart d => some (⟨4, 0x2800069 + at' 8 d.toNat⟩)
  | .vcfgRlen d => some (⟨4, 0x3000069 + at' 8 d.toNat⟩)
  | .vcfgi x i a d => some (withExt x (0x6D + at' 18 i.toNat + at' 13 a.toNat + at' 8 d.toNat))
  | .sbind p n a d => some (withPrefixWord (encodePre p) (0x71 + at' 23 n.toNat + at' 13 a.toNat + at' 8 d.toNat))
  | .sbindQGeneral p n d => some (withPrefixWord (encodePre p) (0x4000071 + at' 23 n.toNat + at' 8 d.toNat))
  | .sbindQVector p n d => some (withPrefixWord (encodePre p) (0x4040071 + at' 23 n.toNat + at' 8 d.toNat))
  | .sunbind p n d => some (withPrefixWord (encodePre p) (0x8000071 + at' 23 n.toNat + at' 8 d.toNat))
  | .sunbindQ p n d => some (withPrefixWord (encodePre p) (0xC000071 + at' 23 n.toNat + at' 8 d.toNat))
  | .sskip p n a => some (withPrefixWord (encodePre p) (0x10000071 + at' 23 n.toNat + at' 13 a.toNat))
  | .spos p n d => some (withPrefixWord (encodePre p) (0x18000071 + at' 23 n.toNat + at' 8 d.toNat))
  | .stbar p s => some (withPrefixWord (encodePre p) (0x20000071 + at' 23 s.toNat))
  | .stbarComplete _ => none
  | .waitc p a d => some (withPrefixWord (encodePre p) (0x28000071 + at' 13 a.toNat + at' 8 d.toNat))
  | .waitcWake _ => none
  | .bset p b a d => some (withPrefixWord (encodePre p) (0x30000071 + at' 18 b.toNat + at' 13 a.toNat + at' 8 d.toNat))
  | .tcfg p b a => some (withPrefixWord (encodePre p) (0x38000071 + at' 18 b.toNat + at' 13 a.toNat))
  | .chwait p d => some (withPrefixWord (encodePre p) (0x40000071 + at' 8 d.toNat))
  | .chwaitWake _ => none
  | .nset p a d => some (withPrefixWord (encodePre p) (0x48000071 + at' 13 a.toNat + at' 8 d.toNat))
  | .nsetF p b a d => some (withPrefixWord (encodePre p) (0x48800071 + at' 18 b.toNat + at' 13 a.toNat + at' 8 d.toNat))
  | .nsig p a d => some (withPrefixWord (encodePre p) (0x50000071 + at' 13 a.toNat + at' 8 d.toNat))
  | .nsigRank p a d => some (withPrefixWord (encodePre p) (0x50800071 + at' 13 a.toNat + at' 8 d.toNat))
  | .nsigCount p a d => some (withPrefixWord (encodePre p) (0x51000071 + at' 13 a.toNat + at' 8 d.toNat))
  | .nsigSeq p a d => some (withPrefixWord (encodePre p) (0x51800071 + at' 13 a.toNat + at' 8 d.toNat))
  | .tmapset a d => some (⟨4, 0x75 + at' 13 a.toNat + at' 8 d.toNat⟩)
  | .tfetch a d => some (⟨4, 0x8000075 + at' 13 a.toNat + at' 8 d.toNat⟩)
  | .tevict a d => some (⟨4, 0x10000075 + at' 13 a.toNat + at' 8 d.toNat⟩)
  | .tlog s b a d => some (⟨4, 0x18000075 + at' 23 s.toNat + at' 18 b.toNat + at' 13 a.toNat + at' 8 d.toNat⟩)
  | .tcompact a d => some (⟨4, 0x20000075 + at' 13 a.toNat + at' 8 d.toNat⟩)
  | .tstat a d => some (⟨4, 0x28000075 + at' 13 a.toNat + at' 8 d.toNat⟩)
  | .vpubl a d => some (⟨4, 0x79 + at' 13 a.toNat + at' 8 d.toNat⟩)
  | .vpublWait a d => some (⟨4, 0x800079 + at' 13 a.toNat + at' 8 d.toNat⟩)
  | .vpublAt b a d => some (⟨4, 0x1000079 + at' 18 b.toNat + at' 13 a.toNat + at' 8 d.toNat⟩)
  | .vpublWaitAt b a d => some (⟨4, 0x1800079 + at' 18 b.toNat + at' 13 a.toNat + at' 8 d.toNat⟩)
  | .vpublWaitResume _ => none
  | .toksw a d => some (⟨4, 0x8000079 + at' 13 a.toNat + at' 8 d.toNat⟩)
  | .tokswMin b a d => some (⟨4, 0x8800079 + at' 18 b.toNat + at' 13 a.toNat + at' 8 d.toNat⟩)
  | .tokswMinResume _ => none
  | .versionPinRelease _ _ => none
  | .sttok b a => some (⟨4, 0x10000079 + at' 18 b.toNat + at' 13 a.toNat⟩)
  | .vpin a d => some (⟨4, 0x18000079 + at' 13 a.toNat + at' 8 d.toNat⟩)
  | .vunpin a d => some (⟨4, 0x20000079 + at' 13 a.toNat + at' 8 d.toNat⟩)
  | .hint x => some (⟨4, 0x7D + at' 8 x.toNat⟩)
  | .cHint x => some (⟨2, 0x4 + at' 11 x.toNat⟩)
  | .cAddi x d => some (⟨2, 0x4 + at' 11 x.toNat + at' 6 d.toNat⟩)
  | .cAdd x d => some (⟨2, 0x8 + at' 11 x.toNat + at' 6 d.toNat⟩)
  | .cSub x d => some (⟨2, 0xC + at' 11 x.toNat + at' 6 d.toNat⟩)
  | .cAnd x d => some (⟨2, 0x10 + at' 11 x.toNat + at' 6 d.toNat⟩)
  | .cOr x d => some (⟨2, 0x14 + at' 11 x.toNat + at' 6 d.toNat⟩)
  | .cXor x d => some (⟨2, 0x18 + at' 11 x.toNat + at' 6 d.toNat⟩)
  | .cShli x d => some (⟨2, 0x1C + at' 11 x.toNat + at' 6 d.toNat⟩)
  | .cShri x d => some (⟨2, 0x20 + at' 11 x.toNat + at' 6 d.toNat⟩)
  | .cSari x d => some (⟨2, 0x24 + at' 11 x.toNat + at' 6 d.toNat⟩)
  | .cLdI64 x d => some (⟨2, 0x28 + at' 11 x.toNat + at' 6 d.toNat⟩)
  | .cStI64 x d => some (⟨2, 0x2C + at' 11 x.toNat + at' 6 d.toNat⟩)
  | .cBeq x d => some (⟨2, 0x30 + at' 11 x.toNat + at' 6 d.toNat⟩)
  | .cBne x d => some (⟨2, 0x34 + at' 11 x.toNat + at' 6 d.toNat⟩)
  | .cJr d => some (⟨2, 0x38 + at' 6 d.toNat⟩)
  | .cJalr d => some (⟨2, 0x838 + at' 6 d.toNat⟩)
  | .cMv x d => some (⟨2, 0x3C + at' 11 x.toNat + at' 6 d.toNat⟩)
  | .cvVaddI32 b d => some (⟨2, 0x6 + at' 11 b.toNat + at' 6 d.toNat⟩)
  | .cvVsubI32 b d => some (⟨2, 0xA + at' 11 b.toNat + at' 6 d.toNat⟩)
  | .cvVmulI32 b d => some (⟨2, 0xE + at' 11 b.toNat + at' 6 d.toNat⟩)
  | .cvVmaccI32 b d => some (⟨2, 0x12 + at' 11 b.toNat + at' 6 d.toNat⟩)
  | .cvVmaxI32 b d => some (⟨2, 0x16 + at' 11 b.toNat + at' 6 d.toNat⟩)
  | .cvVxorI32 b d => some (⟨2, 0x1A + at' 11 b.toNat + at' 6 d.toNat⟩)
  | .cvVfaddF32 b d => some (⟨2, 0x1E + at' 11 b.toNat + at' 6 d.toNat⟩)
  | .cvVfmulF32 b d => some (⟨2, 0x22 + at' 11 b.toNat + at' 6 d.toNat⟩)
  | .cvVfmaF32 b d => some (⟨2, 0x26 + at' 11 b.toNat + at' 6 d.toNat⟩)
  | .cvVfmaxF32 b d => some (⟨2, 0x2A + at' 11 b.toNat + at' 6 d.toNat⟩)
  | .cvVfaddBf16 b d => some (⟨2, 0x2E + at' 11 b.toNat + at' 6 d.toNat⟩)
  | .cvVfmulBf16 b d => some (⟨2, 0x32 + at' 11 b.toNat + at' 6 d.toNat⟩)
  | .cvVfmaBf16 b d => some (⟨2, 0x36 + at' 11 b.toNat + at' 6 d.toNat⟩)
  | .cvVfmaxBf16 b d => some (⟨2, 0x3A + at' 11 b.toNat + at' 6 d.toNat⟩)
  | .vaddVv o => some (encV 0x00000081 o)
  | .vaddVg o => some (encV 0x00000085 o)
  | .vaddVi o => some (encV 0x00000089 o)
  | .vsubVv o => some (encV 0x10000081 o)
  | .vsubVg o => some (encV 0x10000085 o)
  | .vrsubVg o => some (encV 0x20000085 o)
  | .vrsubVi o => some (encV 0x20000089 o)
  | .vmulVv o => some (encV 0x30000081 o)
  | .vmulVg o => some (encV 0x30000085 o)
  | .vmulhVv o => some (encV 0x40000081 o)
  | .vmulhVg o => some (encV 0x40000085 o)
  | .vmaccVv o => some (encV 0x50000081 o)
  | .vmaccVg o => some (encV 0x50000085 o)
  | .vnmsacVv o => some (encV 0x60000081 o)
  | .vnmsacVg o => some (encV 0x60000085 o)
  | .vwaddVv o => some (encV 0x70000081 o)
  | .vwaddVg o => some (encV 0x70000085 o)
  | .vwmulVv o => some (encV 0x80000081 o)
  | .vwmulVg o => some (encV 0x80000085 o)
  | .vwmaccVv o => some (encV 0x90000081 o)
  | .vwmaccVg o => some (encV 0x90000085 o)
  | .vnshrVv o => some (encV 0xA0000081 o)
  | .vnshrVg o => some (encV 0xA0000085 o)
  | .vnshrVi o => some (encV 0xA0000089 o)
  | .vsaddVv o => some (encV 0xB0000081 o)
  | .vsaddVg o => some (encV 0xB0000085 o)
  | .vsaddVi o => some (encV 0xB0000089 o)
  | .vssubVv o => some (encV 0xC0000081 o)
  | .vssubVg o => some (encV 0xC0000085 o)
  | .vavgVv o => some (encV 0xD0000081 o)
  | .vavgVg o => some (encV 0xD0000085 o)
  | .vminVv o => some (encV 0xE0000081 o)
  | .vminVg o => some (encV 0xE0000085 o)
  | .vmaxVv o => some (encV 0xF0000081 o)
  | .vmaxVg o => some (encV 0xF0000085 o)
  | .vandVv o => some (encV 0x0000008D o)
  | .vandVg o => some (encV 0x00000091 o)
  | .vandVi o => some (encV 0x00000095 o)
  | .vorVv o => some (encV 0x1000008D o)
  | .vorVg o => some (encV 0x10000091 o)
  | .vorVi o => some (encV 0x10000095 o)
  | .vxorVv o => some (encV 0x2000008D o)
  | .vxorVg o => some (encV 0x20000091 o)
  | .vxorVi o => some (encV 0x20000095 o)
  | .vshlVv o => some (encV 0x3000008D o)
  | .vshlVg o => some (encV 0x30000091 o)
  | .vshlVi o => some (encV 0x30000095 o)
  | .vshrVv o => some (encV 0x4000008D o)
  | .vshrVg o => some (encV 0x40000091 o)
  | .vshrVi o => some (encV 0x40000095 o)
  | .vsarVv o => some (encV 0x5000008D o)
  | .vsarVg o => some (encV 0x50000091 o)
  | .vsarVi o => some (encV 0x50000095 o)
  | .vmergeVv o => some (encV 0x6000008D o)
  | .vmergeVg o => some (encV 0x60000091 o)
  | .vmergeVi o => some (encV 0x60000095 o)
  | .vmvVv o => some (encV 0x7000008D o)
  | .vmvVg o => some (encV 0x70000091 o)
  | .vmvVi o => some (encV 0x70000095 o)
  | .vcmpEqVv o => some (encV 0x8000008D o)
  | .vcmpEqVg o => some (encV 0x80000091 o)
  | .vcmpEqVi o => some (encV 0x80000095 o)
  | .vcmpNeVv o => some (encV 0x9000008D o)
  | .vcmpNeVg o => some (encV 0x90000091 o)
  | .vcmpNeVi o => some (encV 0x90000095 o)
  | .vcmpLtVv o => some (encV 0xA000008D o)
  | .vcmpLtVg o => some (encV 0xA0000091 o)
  | .vcmpLtVi o => some (encV 0xA0000095 o)
  | .vcmpLeVv o => some (encV 0xB000008D o)
  | .vcmpLeVg o => some (encV 0xB0000091 o)
  | .vcmpLeVi o => some (encV 0xB0000095 o)
  | .vcmpGtVv o => some (encV 0xC000008D o)
  | .vcmpGtVg o => some (encV 0xC0000091 o)
  | .vcmpGtVi o => some (encV 0xC0000095 o)
  | .vcmpGeVv o => some (encV 0xD000008D o)
  | .vcmpGeVg o => some (encV 0xD0000091 o)
  | .vcmpGeVi o => some (encV 0xD0000095 o)
  | .vfaddVv o => some (encV 0x00000099 o)
  | .vfaddVg o => some (encV 0x0000009D o)
  | .vfsubVv o => some (encV 0x10000099 o)
  | .vfsubVg o => some (encV 0x1000009D o)
  | .vfmulVv o => some (encV 0x20000099 o)
  | .vfmulVg o => some (encV 0x2000009D o)
  | .vfmaVv o => some (encV 0x30000099 o)
  | .vfmaVg o => some (encV 0x3000009D o)
  | .vfnmaVv o => some (encV 0x40000099 o)
  | .vfnmaVg o => some (encV 0x4000009D o)
  | .vfdivVv o => some (encV 0x50000099 o)
  | .vfdivVg o => some (encV 0x5000009D o)
  | .vfsqrt o => some (encV 0x60000099 o)
  | .vfminVv o => some (encV 0x70000099 o)
  | .vfminVg o => some (encV 0x7000009D o)
  | .vfmaxVv o => some (encV 0x80000099 o)
  | .vfmaxVg o => some (encV 0x8000009D o)
  | .vfcmpEqVv o => some (encV 0x90000099 o)
  | .vfcmpEqVg o => some (encV 0x9000009D o)
  | .vfcmpNeVv o => some (encV 0xA0000099 o)
  | .vfcmpNeVg o => some (encV 0xA000009D o)
  | .vfcmpLtVv o => some (encV 0xB0000099 o)
  | .vfcmpLtVg o => some (encV 0xB000009D o)
  | .vfcmpLeVv o => some (encV 0xC0000099 o)
  | .vfcmpLeVg o => some (encV 0xC000009D o)
  | .vfcmpGtVv o => some (encV 0xD0000099 o)
  | .vfcmpGtVg o => some (encV 0xD000009D o)
  | .vfcmpGeVv o => some (encV 0xE0000099 o)
  | .vfcmpGeVg o => some (encV 0xE000009D o)
  | .vfcmpUnVv o => some (encV 0xF0000099 o)
  | .vfcmpUnVg o => some (encV 0xF000009D o)
  | .mand o => some (encV 0x000000A1 o)
  | .mor o => some (encV 0x100000A1 o)
  | .mxor o => some (encV 0x200000A1 o)
  | .mnot o => some (encV 0x300000A1 o)
  | .mpopc o => some (encV 0x400000A1 o)
  | .mffs o => some (encV 0x500000A1 o)
  | .mset o => some (encV 0x600000A1 o)
  | .vreconf o => some (encV 0x700000A1 o)
  | .vslideu o => some (encV 0x800000A1 o)
  | .vslided o => some (encV 0x900000A1 o)
  | .vgather o => some (encV 0xA00000A1 o)
  | .vcompress o => some (encV 0xB00000A1 o)
  | .viota o => some (encV 0xC00000A1 o)
  | .vext o => some (encV 0xD00000A1 o)
  | .vins o => some (encV 0xE00000A1 o)
  | .vredsum o => some (encV 0x000000A5 o)
  | .vredmax o => some (encV 0x100000A5 o)
  | .vredmin o => some (encV 0x200000A5 o)
  | .vfredsum o => some (encV 0x300000A5 o)
  | .vfredmax o => some (encV 0x400000A5 o)
  | .vfredmin o => some (encV 0x500000A5 o)
  | .vfredms o => some (encV 0x600000A5 o)
  | .vfcvt o => some (encV 0x700000A5 o)
  | .vfcvtEf o => some (encV 0x800000A5 o)
  | .vrec o => some (encV 0xC00000A5 o)
  | .vendrec o => some (encV 0xD00000A5 o)
  | .vreplay o => some (encV 0xE00000A5 o)
  | .aalloc o => some (encX 0x000000A9 o)
  | .aallocWait o => some (encX 0x000000A9 o)
  | .aallocWaitBind _ => none
  | .afree o => some (encX 0x010000A9 o)
  | .aclr o => some (encX 0x020000A9 o)
  | .ldws o => some (encX 0x030000A9 o)
  | .swpl o => some (encX 0x040000A9 o)
  | .mstream o => some (encX 0x050000A9 o)
  | .mopa o => some (encX 0x060000A9 o)
  | .mops o => some (encX 0x070000A9 o)
  | .axtr o => some (encX 0x080000A9 o)
  | .axtc o => some (encX 0x090000A9 o)
  | .asave o => some (encX 0x0A0000A9 o)
  | .aload o => some (encX 0x0B0000A9 o)
  | .aaddi o => some (encX 0x0C0000A9 o)
  | .trow o => some (encX 0x000000AD o)
  | .tcol o => some (encX 0x010000AD o)
  | .tld o => some (encX 0x020000AD o)
  | .tst o => some (encX 0x030000AD o)
  | .vld o => some (encM 0x000000B1 o)
  | .vlds o => some (encM 0x200000B1 o)
  | .vldx o => some (encM 0x400000B1 o)
  | .vldseg o => some (encM 0x600000B1 o)
  | .vldff o => some (encM 0x800000B1 o)
  | .cbld o => some (encM 0xA00000B1 o)
  | .vfill o => some (encM 0xC00000B1 o)
  | .vst o => some (encM 0x000000B5 o)
  | .vsts o => some (encM 0x200000B5 o)
  | .vstx o => some (encM 0x400000B5 o)
  | .vstseg o => some (encM 0x600000B5 o)
  | .vspill o => some (encM 0x800000B5 o)
  | .ldpSum o => some (encM 0x000000B9 o)
  | .ldpMax o => some (encM 0x200000B9 o)
  | .ldpMin o => some (encM 0x400000B9 o)
  | .ldpMaxsum o => some (encM 0x600000B9 o)
  | .ldpAnd o => some (encM 0x800000B9 o)
  | .ldpOr o => some (encM 0xA00000B9 o)
  | .ldpXor o => some (encM 0xC00000B9 o)
  | .ldpFirst o => some (encM 0xE00000B9 o)
  | .stp o => some (encM 0x000000BD o)
  | .chrun o => some (encM 0x200000BD o)
  | .chordCommandPlace _ => none
  | .chordRunStart _ => none
  | .chordRunEnd _ => none
  | .vamoAdd o => some (encM 0x000000C1 o)
  | .vamoMin o => some (encM 0x200000C1 o)
  | .vamoMax o => some (encM 0x400000C1 o)
  | .vamoAnd o => some (encM 0x600000C1 o)
  | .vamoOr o => some (encM 0x800000C1 o)
  | .vamoXor o => some (encM 0xA00000C1 o)
  | .vamoSwap o => some (encM 0xC00000C1 o)
  | .vamoCas o => some (encM 0xE00000C1 o)
  | .vamooAdd o => some (encM 0x000000C5 o)
  | .vamooMin o => some (encM 0x200000C5 o)
  | .vamooMax o => some (encM 0x400000C5 o)
  | .vamooAnd o => some (encM 0x600000C5 o)
  | .vamooOr o => some (encM 0x800000C5 o)
  | .vamooXor o => some (encM 0xA00000C5 o)
  | .vamooSwap o => some (encM 0xC00000C5 o)
  | .vamooCas o => some (encM 0xE00000C5 o)
  | .tmov o => some (encX 0x000000C9 o)
  | .tmovComplete _ => none
  | .tokp o => some (encX 0x010000C9 o)
  | .tokw o => some (encX 0x020000C9 o)
  | .vfence o => some (encX 0x030000C9 o)
  | .vfenceD o => some (encX 0x040000C9 o)
  | .vcoll o => some (encK 0x000000CD o)
  | .collectiveChunkArrival _ => none
  | .collectiveGo _ => none
  | .collectiveAbort _ => none
  | .vsend o => some (encM 0x000000D1 o)
  | .vrecv o => some (encM 0x200000D1 o)
  | .messageArrival _ => none
  | .endpointChunkSend _ => none
  | .slotFreeNotice _ => none
  | .fabricErrorTimeout _ _ => none
  | .linkFlitRetry _ => none
  | .entryStart _ => none
  | .entryCommit _ => none
  | .vectorQueuePushResume _ => none
  | .queueRegisterResume _ _ => none
  | .streamStripRead _ _ => none
  | .writeStreamStore _ => none
  | .tileLogCompaction _ _ _ => none
  | .tileArrival _ _ _ => none
  | .tileLeave _ _ _ => none
  | .combineDrain _ => none
  | .slotPlacement _ _ => none
  | .preemption _ => none
  | .contextSaveDone _ => none
  | .lmaxExpiry _ => none
  | .latticeIdleTimeout _ => none
  | .storageErrorDetected _ => none
  | .hostMemAccess _ _ _ => none
  | .powerOnReset _ => none
  | .expanderLost _ => none
  | .fuondLinkFailed _ => none
  | .ptpMessage _ => none
  | .ptpLockLost => none
  | .ident _ => none
  | .partset _ => none
  | .lmax _ => none
  | .vtabRegister _ => none
  | .vtabRemove _ => none
  | .planld _ => none
  | .planfr _ => none
  | .slew _ => none
  | .pkgid _ => none
  | .dbgAttach _ => none
  | .dbgDetach _ => none
  | .dbgResume _ => none
  | .dbgSave _ => none
  | .dbgRestore _ => none
  | .status _ => none
  | .fwupd _ => none
  | .softc _ => none
  | .launch _ => none
  | .memcap _ => none
  | .unknownCommand _ => none
  | .getVersion _ => none
  | .getCapabilities _ => none
  | .negotiateAlgorithms _ => none
  | .getDigests _ => none
  | .getCertificate _ => none
  | .challenge _ => none
  | .getMeasurements _ => none
  | .securedSession _ => none
  | .hdmDecoderWrite _ => none
  | .confirmationReportArrival _ => none
  | .linkRetrain _ => none
  | .syncInterval _ => none

end

end Sys2Proof
end

