-- ==== Sys2Proof/Machine/Cells.lean ====
section
/-! DEFINITION. The sparse store that memory, vector storage and the tile registers share: a list of key and value
pairs in one canonical form, keys strictly rising and no pair holding what an unlisted key reads as. -/

namespace Sys2Proof.Machine

/-- A sparse store; an unlisted key reads as the store's default. -/
abbrev Cells (α : Type) := List (Nat × α)

namespace Cells
variable {α : Type}

/-- The value at key `a`; `d` where none is listed. -/
def get (d : α) : Cells α → Nat → α
  | [], _ => d
  | (b, v) :: r, a => if a = b then v else get d r a

/-- Every pair but those at key `a`. -/
def erase : Cells α → Nat → Cells α
  | [], _ => []
  | (b, v) :: r, a => if a = b then erase r a else (b, v) :: erase r a

/-- A pair placed before the first greater key. -/
def insert : Cells α → Nat → α → Cells α
  | [], a, v => [(a, v)]
  | (b, w) :: r, a, v => if a < b then (a, v) :: (b, w) :: r else (b, w) :: insert r a v

/-- Write `v` at key `a`; writing the default removes the pair. -/
def set [DecidableEq α] (d : α) (m : Cells α) (a : Nat) (v : α) : Cells α :=
  if v = d then erase m a else insert (erase m a) a v

/-- The canonical form. -/
def wf [DecidableEq α] (d : α) : Cells α → Bool
  | [] => true
  | [(_, v)] => decide (v ≠ d)
  | (a, v) :: (b, w) :: r => decide (a < b) && decide (v ≠ d) && wf d ((b, w) :: r)

/-- Write the values of `vs` at `a`, `a + 1` and so on. -/
def setRange [DecidableEq α] (d : α) : Cells α → Nat → List α → Cells α
  | m, _, [] => m
  | m, a, v :: vs => setRange d (set d m a v) (a + 1) vs

/-- The values at `a`, `a + 1` up to `a + n - 1`. -/
def getRange (d : α) (m : Cells α) : Nat → Nat → List α
  | _, 0 => []
  | a, n + 1 => get d m a :: getRange d m (a + 1) n

/-- Every pair outside the keys `[a, a + n)`: those keys read as the default. -/
def clearRange (m : Cells α) (a n : Nat) : Cells α :=
  m.filter fun p => p.1 < a || a + n ≤ p.1

end Cells

/-- What a byte that nothing has written reads as (DESIGN CHOICE, log entry 1: R356 gives no contents after power-on). -/
def unlistedByte : BitVec 8 := 0

/-- Memory by 52-bit physical address; the scratchpads follow above it (R268, R356, log entry 1). -/
abbrev Memory := List Host.Cell

namespace Memory
def read (m : Memory) (a : Nat) : BitVec 8 := Cells.get unlistedByte m a
def write (m : Memory) (a : Nat) (v : BitVec 8) : Memory := Cells.set unlistedByte m a v
def wf (m : Memory) : Bool := Cells.wf unlistedByte m
/-- The little-endian number in the `n` bytes at `a` (R4). -/
def readN (m : Memory) (a n : Nat) : Nat := ofBytesLE (Cells.getRange unlistedByte m a n)
def readBytes (m : Memory) (a n : Nat) : List (BitVec 8) := Cells.getRange unlistedByte m a n
def writeBytes (m : Memory) (a : Nat) (bs : List (BitVec 8)) : Memory := Cells.setRange unlistedByte m a bs
def writeN (m : Memory) (a n v : Nat) : Memory := writeBytes m a (bytesLE n v)
/-- Every byte of `[a, a + n)` made zero. -/
def zero (m : Memory) (a n : Nat) : Memory := Cells.clearRange m a n
end Memory

end Sys2Proof.Machine
end

