-- ==== Sys2Proof/Machine/Float.lean ====
section
/-! DEFINITION. Floating-point formats, exact values, `round_to`, stochastic rounding, conversions, block scales,
codebooks, exponentials and the paired max-and-sum (spec/04_number_formats.md R77 to R93, R112, R113). -/

namespace Sys2Proof.Machine

/-- The five floating-point formats of R77. -/
inductive Fmt where
  | f32 | bf16 | f16 | e4m3 | e5m2
  deriving DecidableEq, Repr

namespace Fmt
/-- Width in bits. -/
def bits : Fmt → Nat
  | f32 => 32 | bf16 => 16 | f16 => 16 | e4m3 => 8 | e5m2 => 8
/-- Precision, counting the hidden bit. -/
def prec : Fmt → Nat
  | f32 => 24 | bf16 => 8 | f16 => 11 | e4m3 => 4 | e5m2 => 3
def expBits : Fmt → Nat
  | f32 => 8 | bf16 => 8 | f16 => 5 | e4m3 => 4 | e5m2 => 5
def emin : Fmt → Int
  | f32 => -126 | bf16 => -126 | f16 => -14 | e4m3 => -6 | e5m2 => -14
def emax : Fmt → Int
  | f32 => 127 | bf16 => 127 | f16 => 15 | e4m3 => 8 | e5m2 => 15
/-- The canonical NaN. -/
def canon : Fmt → Nat
  | f32 => 0x7FC00000 | bf16 => 0x7FC0 | f16 => 0x7E00 | e4m3 => 0x7F | e5m2 => 0x7E
/-- The pattern of the largest finite magnitude. -/
def maxFin : Fmt → Nat
  | f32 => 0x7F7FFFFF | bf16 => 0x7F7F | f16 => 0x7BFF | e4m3 => 0x7E | e5m2 => 0x7B
/-- Significand of the largest finite magnitude, in units of `2 ^ (emax - prec + 1)`. -/
def maxSig : Fmt → Nat
  | f32 => 2 ^ 24 - 1 | bf16 => 255 | f16 => 2047 | e4m3 => 14 | e5m2 => 7
/-- The pattern of positive infinity; `e4m3` has none. -/
def infBits : Fmt → Nat
  | f32 => 0x7F800000 | bf16 => 0x7F80 | f16 => 0x7C00 | e4m3 => 0x7E | e5m2 => 0x7C
/-- The formats whose conversions saturate (R81). -/
def saturates : Fmt → Bool
  | e4m3 => true | e5m2 => true | _ => false
def signBit (f : Fmt) : Nat := 2 ^ (f.bits - 1)
end Fmt

/-- Rounding modes of R89. -/
inductive Rm where
  | rne | rtz | rup | rdn | rna | sr
  deriving DecidableEq, Repr

/-- The mode of a code 0 to 5; other codes do not reach here (R89, R95). -/
def Rm.ofCode (n : Nat) : Rm :=
  if n = 1 then .rtz else if n = 2 then .rup else if n = 3 then .rdn
  else if n = 4 then .rna else if n = 5 then .sr else .rne

/-- An exact value: a NaN, an infinity, or `± n / d` with `d > 0`; a zero keeps its sign. -/
inductive Val where
  | nan
  | inf (neg : Bool)
  | fin (neg : Bool) (n d : Nat)
  deriving DecidableEq, Repr

/-- Flags an operation raises: bits [5:0] are those of FFLAGS (R97), bit 6 is SAT (R98). -/
abbrev Flg := BitVec 7

def flNX : Flg := 1
def flUF : Flg := 2
def flOF : Flg := 4
def flDZ : Flg := 8
def flNV : Flg := 16
def flNF : Flg := 32
def flSAT : Flg := 64
def flIf (b : Bool) (f : Flg) : Flg := if b then f else 0

/-- A pattern and the flags raised in making it. -/
structure Res where
  bits : Nat
  fl : Flg
  deriving DecidableEq, Repr

def isNaNBits (f : Fmt) (w : Nat) : Bool :=
  let v := w % f.signBit
  if f = .e4m3 then v = 0x7F else f.infBits < v

/-- A NaN whose top fraction bit is 0, in f32, bf16 and f16 only (R78). -/
def isSNaNBits (f : Fmt) (w : Nat) : Bool :=
  !f.saturates && isNaNBits f w && (w / 2 ^ (f.prec - 2) % 2 == 0)

def isInfBits (f : Fmt) (w : Nat) : Bool := f ≠ .e4m3 && w % f.signBit == f.infBits

def signOf (f : Fmt) (w : Nat) : Bool := w / f.signBit % 2 == 1

/-- `n / d * 2 ^ e` as a fraction. -/
def scaleFrac (n d : Nat) (e : Int) : Nat × Nat :=
  if 0 ≤ e then (n * 2 ^ e.toNat, d) else (n, d * 2 ^ (-e).toNat)

/-- The value of a pattern (R77). -/
def decodeF (f : Fmt) (w : Nat) : Val :=
  if isNaNBits f w then .nan else
  if isInfBits f w then .inf (signOf f w) else
  let v := w % f.signBit
  let ef := v / 2 ^ (f.prec - 1)
  let fr := v % 2 ^ (f.prec - 1)
  let sig := if ef = 0 then fr else fr + 2 ^ (f.prec - 1)
  let e : Int := (if ef = 0 then f.emin else Int.ofNat ef - 1 + f.emin) - Int.ofNat (f.prec - 1)
  let q := scaleFrac sig 1 e
  .fin (signOf f w) q.1 q.2

def Val.isNaN : Val → Bool
  | .nan => true
  | _ => false

def Val.isFinite : Val → Bool
  | .fin _ _ _ => true
  | _ => false

def Val.isZero : Val → Bool
  | .fin _ n _ => n == 0
  | _ => false

def Val.neg : Val → Val
  | .nan => .nan
  | .inf s => .inf (!s)
  | .fin s n d => .fin (!s) n d

/-- `floor (log2 (n / d))` for `n > 0`. -/
def flog2 (n d : Nat) : Int :=
  let k : Int := Int.ofNat (Nat.log2 n) - Int.ofNat (Nat.log2 d)
  let q := scaleFrac n d (-k)
  if q.2 ≤ q.1 then k else k - 1

/-- Whether the remainder `r / m` above the even or odd `lo` rounds up (R90). -/
def roundsUp (mode : Rm) (neg : Bool) (lo r m h : Nat) : Bool :=
  if r = 0 then false else
  match mode with
  | .rne => m < 2 * r || (2 * r == m && lo % 2 == 1)
  | .rna => m ≤ 2 * r
  | .rup => !neg
  | .rdn => neg
  | .rtz => false
  | .sr => 2 ^ 32 ≤ r * 2 ^ 32 / m + h % 2 ^ 32

/-- `overflow` of R90, with the saturation flag of R81. -/
def overflowRes (f : Fmt) (neg : Bool) (mode : Rm) : Res :=
  let s := if neg then f.signBit else 0
  let toInf : Bool := match mode with
    | .rtz => false
    | .rup => !neg
    | .rdn => neg
    | _ => true
  if f.saturates then ⟨s + f.maxFin, flOF ||| flNX ||| flIf toInf flSAT⟩
  else ⟨s + (if toInf then f.infBits else f.maxFin), flOF ||| flNX⟩

/-- The rounded significand of `n / d` in units of `2 ^ qe`, and whether it is inexact. -/
def roundAt (n d : Nat) (qe : Int) (mode : Rm) (neg : Bool) (h : Nat) : Nat × Bool :=
  let q := scaleFrac n d (-qe)
  let lo := q.1 / q.2
  let r := q.1 % q.2
  (if roundsUp mode neg lo r q.2 h then lo + 1 else lo, r ≠ 0)

/-- `n / d < 2 ^ e`. -/
def ltPow2 (n d : Nat) (e : Int) : Bool :=
  let q := scaleFrac n d (-e)
  q.1 < q.2

/-- Tiny: the magnitude rounded with `emin` unbounded lies below `2 ^ emin` (R91). -/
def isTiny (f : Fmt) (n d : Nat) (mode : Rm) (neg : Bool) (h : Nat) : Bool :=
  let e := flog2 n d
  let qe := e - Int.ofNat (f.prec - 1)
  let t := (roundAt n d qe mode neg h).1
  let q := scaleFrac t 1 qe
  ltPow2 q.1 q.2 f.emin

/-- `round_to` of R90 with the flags of R91 and the saturation of R81. -/
def roundTo (v : Val) (f : Fmt) (mode : Rm) (h : Nat) : Res :=
  match v with
  | .nan => ⟨f.canon, 0⟩
  | .inf neg =>
    ⟨(if neg then f.signBit else 0) + f.infBits, flIf (f == .e4m3) flSAT⟩
  | .fin neg n d =>
    let s := if neg then f.signBit else 0
    if n = 0 then ⟨s, 0⟩ else
    let e := max (flog2 n d) f.emin
    let qe := e - Int.ofNat (f.prec - 1)
    let t := roundAt n d qe mode neg h
    let topE := f.emax - Int.ofNat (f.prec - 1)
    let tooBig := topE < qe || (qe == topE && f.maxSig < t.1)
    if tooBig then overflowRes f neg mode else
    let k := (qe - (f.emin - Int.ofNat (f.prec - 1))).toNat
    ⟨s + k * 2 ^ (f.prec - 1) + t.1,
     flIf t.2 flNX ||| flIf (t.2 && isTiny f n d mode neg h) flUF⟩

/-- `mix32` of R92. -/
def mix32 (x : BitVec 32) : BitVec 32 :=
  let x := x ^^^ (x >>> 16)
  let x := x * 0x7FEB352D#32
  let x := x ^^^ (x >>> 15)
  let x := x * 0x846CA68B#32
  x ^^^ (x >>> 16)

/-- `sr_hash` of R92. -/
def srHash (seed : BitVec 64) (e key : Nat) : Nat :=
  let h := mix32 (seed.extractLsb' 0 32 ^^^ BitVec.ofNat 32 e)
  let h := mix32 (h ^^^ seed.extractLsb' 32 32)
  (mix32 (h ^^^ BitVec.ofNat 32 key)).toNat

/-- The 32-bit key of R92: the unit that rounds and its 28-bit index. -/
def srKey (unit idx : Nat) : Nat := unit % 16 * 2 ^ 28 + idx % 2 ^ 28

/-- The sum of two exact values: signs of zero by R88; the flag says an invalid operation. -/
def Val.add (a b : Val) (mode : Rm) : Val × Bool :=
  match a, b with
  | .nan, _ => (.nan, false)
  | _, .nan => (.nan, false)
  | .inf s, .inf t => if s == t then (.inf s, false) else (.nan, true)
  | .inf s, _ => (.inf s, false)
  | _, .inf t => (.inf t, false)
  | .fin s n d, .fin t m e =>
    let x : Int := (if s then - Int.ofNat (n * e) else Int.ofNat (n * e))
      + (if t then - Int.ofNat (m * d) else Int.ofNat (m * d))
    if x = 0 then
      let neg := if n = 0 ∧ m = 0 ∧ s = t then s else (mode == .rdn)
      (.fin neg 0 1, false)
    else (.fin (x < 0) x.natAbs (d * e), false)

/-- The product of two exact values; the flag says an invalid operation. -/
def Val.mul (a b : Val) : Val × Bool :=
  match a, b with
  | .nan, _ => (.nan, false)
  | _, .nan => (.nan, false)
  | .inf s, .inf t => (.inf (s != t), false)
  | .inf s, .fin t m _ => if m = 0 then (.nan, true) else (.inf (s != t), false)
  | .fin s n _, .inf t => if n = 0 then (.nan, true) else (.inf (s != t), false)
  | .fin s n d, .fin t m e => (.fin (s != t) (n * m) (d * e), false)

/-- The integer square root of `n`, by bits. -/
def isqrtAux : Nat → Nat → Nat → Nat
  | 0, _, r => r
  | k + 1, n, r =>
    let c := r + 2 ^ k
    isqrtAux k n (if c * c ≤ n then c else r)

def isqrt (n : Nat) : Nat := isqrtAux (Nat.log2 n / 2 + 1) n 0

/-- The root of `n / d` as a fraction that rounds as the exact root does: 96 further bits and a sticky bit (DEDUCED, log entry 10). -/
def sqrtFrac (n d : Nat) : Nat × Nat :=
  let m := n * d * 2 ^ 192
  let r := isqrt m
  (2 * r + (if r * r = m then 0 else 1), 2 * d * 2 ^ 96)

/-- Flags for a signalling NaN among the operands (R79). -/
def snanFl (f : Fmt) (ws : List Nat) : Flg := flIf (ws.any (isSNaNBits f)) flNV

/-- Round the exact result of an operation on operands `ws` of format `f` (R79, R88). -/
def finish (f : Fmt) (ws : List Nat) (r : Val × Bool) (mode : Rm) (h : Nat) : Res :=
  let x := roundTo r.1 f mode h
  ⟨x.bits, x.fl ||| snanFl f ws ||| flIf r.2 flNV⟩

def fAdd (f : Fmt) (a b : Nat) (mode : Rm) (h : Nat) : Res :=
  finish f [a, b] ((decodeF f a).add (decodeF f b) mode) mode h

def fSub (f : Fmt) (a b : Nat) (mode : Rm) (h : Nat) : Res :=
  finish f [a, b] ((decodeF f a).add (decodeF f b).neg mode) mode h

def fMul (f : Fmt) (a b : Nat) (mode : Rm) (h : Nat) : Res :=
  finish f [a, b] ((decodeF f a).mul (decodeF f b)) mode h

/-- Division: a finite non-zero value over zero sets DZ (R91). -/
def fDiv (f : Fmt) (a b : Nat) (mode : Rm) (h : Nat) : Res :=
  let x := decodeF f a
  let y := decodeF f b
  match x, y with
  | .fin s n d, .fin t m e =>
    if m = 0 then
      if n = 0 then ⟨f.canon, flNV⟩
      else ⟨(if s != t then f.signBit else 0) + f.infBits, flDZ⟩
    else finish f [a, b] (.fin (s != t) (n * e) (d * m), false) mode h
  | .inf s, .fin t _ _ => finish f [a, b] (.inf (s != t), false) mode h
  | .fin s _ _, .inf t => finish f [a, b] (.fin (s != t) 0 1, false) mode h
  | .inf _, .inf _ => finish f [a, b] (.nan, true) mode h
  | _, _ => finish f [a, b] (.nan, false) mode h

def fSqrt (f : Fmt) (a : Nat) (mode : Rm) (h : Nat) : Res :=
  match decodeF f a with
  | .nan => finish f [a] (.nan, false) mode h
  | .inf false => finish f [a] (.inf false, false) mode h
  | .inf true => finish f [a] (.nan, true) mode h
  | .fin s n d =>
    if n = 0 then finish f [a] (.fin s 0 1, false) mode h
    else if s then finish f [a] (.nan, true) mode h
    else
      let q := sqrtFrac n d
      finish f [a] (.fin false q.1 q.2, false) mode h

/-- `± (a × b) + c`, rounded once (R88, R125); an invalid product is invalid whatever `c` holds. -/
def fFma (f : Fmt) (negP : Bool) (a b c : Nat) (mode : Rm) (h : Nat) : Res :=
  let p := (decodeF f a).mul (decodeF f b)
  let p1 := if negP then p.1.neg else p.1
  let s := p1.add (decodeF f c) mode
  finish f [a, b, c] (s.1, p.2 || s.2) mode h

/-- Compare two values that are not NaN: `-0 < +0` is false here (R128). -/
def Val.lt (a b : Val) : Bool :=
  match a, b with
  | .inf s, .inf t => s && !t
  | .inf s, .fin _ _ _ => s
  | .fin _ _ _, .inf t => !t
  | .fin s n d, .fin t m e =>
    let x : Int := if s then - Int.ofNat (n * e) else Int.ofNat (n * e)
    let y : Int := if t then - Int.ofNat (m * d) else Int.ofNat (m * d)
    x < y
  | _, _ => false

def Val.eqv (a b : Val) : Bool := !a.isNaN && !b.isNaN && !a.lt b && !b.lt a

/-- Whether `a` precedes `b` in the order of R127, where −0 is less than +0. -/
def fLess (f : Fmt) (a b : Nat) : Bool :=
  let x := decodeF f a
  let y := decodeF f b
  x.lt y || (x.isZero && y.isZero && signOf f a && !signOf f b)

/-- FMIN and FMAX (R127). -/
def fMinMax (f : Fmt) (isMax : Bool) (a b : Nat) : Res :=
  let fl := snanFl f [a, b]
  let na := isNaNBits f a
  let nb := isNaNBits f b
  if na && nb then ⟨f.canon, fl⟩
  else if na then ⟨b, fl⟩
  else if nb then ⟨a, fl⟩
  else if (if isMax then fLess f a b else fLess f b a) then ⟨b, fl⟩ else ⟨a, fl⟩

/-- The relation of a condition code and its flags (R56, R128). -/
def fCmp (f : Fmt) (cond : Nat) (a b : Nat) : Bool × Flg :=
  let x := decodeF f a
  let y := decodeF f b
  let un := x.isNaN || y.isNaN
  let r :=
    if cond = 0 then x.eqv y
    else if cond = 1 then un || !(x.eqv y)
    else if cond = 2 then !un && x.lt y
    else if cond = 3 then !un && !(y.lt x)
    else if cond = 4 then !un && y.lt x
    else if cond = 5 then !un && !(x.lt y)
    else un
  let ordered := cond = 2 ∨ cond = 3 ∨ cond = 4 ∨ cond = 5
  (r, if ordered then flIf un flNV else snanFl f [a, b])

/-- The class mask of R129, for f32. -/
def fClass (a : Nat) : Nat :=
  let f := Fmt.f32
  if isNaNBits f a then (if isSNaNBits f a then 2 ^ 8 else 2 ^ 9)
  else if isInfBits f a then (if signOf f a then 2 ^ 0 else 2 ^ 7)
  else
    let v := a % f.signBit
    let neg := signOf f a
    if v = 0 then (if neg then 2 ^ 3 else 2 ^ 4)
    else if v < 2 ^ 23 then (if neg then 2 ^ 2 else 2 ^ 5)
    else (if neg then 2 ^ 1 else 2 ^ 6)

/-- The conversions that are exact and set no flag (R80). -/
def exactCvt (src dst : Fmt) : Bool :=
  match src, dst with
  | .bf16, .f32 => true | .f16, .f32 => true | .e4m3, .f32 => true | .e5m2, .f32 => true
  | .e4m3, .bf16 => true | .e5m2, .bf16 => true
  | _, _ => false

/-- Convert between formats; equal formats copy bits (R79, R80, R81). -/
def fCvt (src dst : Fmt) (a : Nat) (mode : Rm) (h : Nat) : Res :=
  if src = dst then ⟨a % 2 ^ src.bits, 0⟩
  else
    let r := roundTo (decodeF src a) dst mode h
    ⟨r.bits, r.fl ||| (if exactCvt src dst then 0 else snanFl src [a])⟩

/-- An integer converted to a format (R80). -/
def intToF (v : Int) (dst : Fmt) (mode : Rm) (h : Nat) : Res :=
  roundTo (.fin (v < 0) v.natAbs 1) dst mode h

/-- A value rounded to an integer type (R82). -/
def fToInt (v : Val) (signed : Bool) (n : Nat) (mode : Rm) (h : Nat) : Int × Flg :=
  match v with
  | .nan => (0, flNV)
  | .inf neg => (if neg then intMin signed n else intMax signed n, flNV)
  | .fin neg m d =>
    let t := roundAt m d 0 mode neg h
    let x : Int := if neg then - Int.ofNat t.1 else Int.ofNat t.1
    let s := saturate signed n x
    (s.1, if s.2 then flNV else flIf t.2 flNX)

/-! Block scales and codebooks -/

/-- A value times `2 ^ e`. -/
def Val.scale (v : Val) (e : Int) : Val :=
  match v with
  | .fin s n d => let q := scaleFrac n d e; .fin s q.1 q.2
  | v => v

/-- Entry `i` of a codebook register (R83). -/
def cbEntry (cb : BitVec 256) (i : Nat) : Nat := cb.toNat / 2 ^ (16 * (i % 16)) % 2 ^ 16

/-- The distance from a finite `x` to a codebook entry, as a fraction; none for an infinite entry. -/
def cbDist (x y : Val) : Option (Nat × Nat) :=
  match (x.add y.neg .rne).1 with
  | .fin _ n d => some (n, d)
  | _ => none

/-- Whether distance `p` is smaller than `q`; an infinite entry is infinitely far. -/
def distLt (p q : Option (Nat × Nat)) : Bool :=
  match p, q with
  | some (n, d), some (m, e) => n * e < m * d
  | some _, none => true
  | none, _ => false

/-- The lowest index among `idx` that `better` does not beat. -/
def bestIdx (better : Nat → Nat → Bool) : List Nat → Option Nat
  | [] => none
  | i :: is =>
    match bestIdx better is with
    | none => some i
    | some j => if better j i then some j else some i

/-- An entry as a decoded value: a NaN becomes the canonical NaN (R80). -/
def cbNum (cb : BitVec 256) (i : Nat) : Nat := if isNaNBits .bf16 (cbEntry cb i) then Fmt.bf16.canon else cbEntry cb i

/-- The index that a store to c4 encodes, with its flags (R84). `x` is the exact value. Where no entry qualifies NV is set alone: no
entry is chosen, so that NX has nothing to compare (log entry 82). -/
def cbEncode (cb : BitVec 256) (x : Val) : Nat × Flg :=
  let ent (i : Nat) : Val := decodeF .bf16 (cbEntry cb i)
  let all := List.range 16
  let real := all.filter fun i => !(ent i).isNaN
  match x with
  | .nan =>
    match all.find? (fun i => (ent i).isNaN) with
    | some i => (i, 0)
    | none => (0, flNV)
  | .inf neg =>
    match real.find? (fun i => ent i == .inf neg) with
    | some i => (i, 0)
    | none =>
      match bestIdx (fun j i => if neg then (ent j).lt (ent i) else (ent i).lt (ent j)) real with
      | some i => (i, flNX)
      | none => (0, flNV)
  | v =>
    match bestIdx (fun j i => distLt (cbDist v (ent j)) (cbDist v (ent i))) real with
    | some i => (i, flIf (!(v.eqv (ent i))) flNX)
    | none => (0, flNV)

/-! Exponentials (R112) and the paired max-and-sum (R113) -/

/-- Fractional bits of the fixed-point evaluation of exp (DEDUCED, log entry 10). -/
def expBits : Nat := 768

/-- `sum of x^k / k!` for a fixed-point `x` below 1, by its last terms first. -/
def expSeries : Nat → Nat → Nat → Nat → Nat
  | 0, _, _, acc => acc
  | n + 1, x, k, term =>
    let t := term * x / 2 ^ expBits / k
    term + expSeries n x (k + 1) t

def squareN : Nat → Nat → Nat
  | 0, y => y
  | n + 1, y => squareN n (y * y / 2 ^ expBits)

/-- `exp (n / d)` for `0 ≤ n / d < 1024`, in fixed point: Taylor series at `x / 2^20`, squared 20 times. -/
def expPos (n d : Nat) : Nat :=
  let x := n * 2 ^ expBits / (d * 2 ^ 20)
  squareN 20 (expSeries 70 x 1 (2 ^ expBits))

/-- `exp` of a finite value as a fraction; arguments at or beyond 1024 stand for their overflow or underflow. -/
def expFrac (neg : Bool) (n d : Nat) : Nat × Nat :=
  if 1024 * d ≤ n then (if neg then (1, 2 ^ 1024) else (2 ^ 1024, 1))
  else
    let y := expPos n d
    if neg then (2 ^ expBits, y) else (y, 2 ^ expBits)

/-- A correctly rounded f32 exponential, with its flags (R112). -/
def fExp (v : Val) : Res :=
  match v with
  | .nan => ⟨Fmt.f32.canon, 0⟩
  | .inf true => ⟨0, 0⟩
  | .inf false => ⟨Fmt.f32.infBits, 0⟩
  | .fin neg n d =>
    if n = 0 then ⟨0x3F800000, 0⟩ else
    let q := expFrac neg n d
    let r := roundTo (.fin false q.1 q.2) .f32 .rne 0
    ⟨r.bits, r.fl ||| flNX⟩

/-- A pair of f32 patterns. -/
structure MsPair where
  m : Nat
  s : Nat
  deriving DecidableEq, Repr

/-- The identity pair (−∞, +0). -/
def MsPair.unit : MsPair := ⟨0xFF800000, 0⟩

/-- The factor of step 2 of R113. -/
def msFactor (mi mx : Nat) : Res :=
  let x := decodeF .f32 mi
  let y := decodeF .f32 mx
  if x.eqv y then ⟨0x3F800000, 0⟩ else fExp (x.add y.neg .rne).1

/-- The combination of two pairs (R113). -/
def msCombine (p q : MsPair) : MsPair × Flg :=
  if isNaNBits .f32 p.m || isNaNBits .f32 q.m then
    (⟨Fmt.f32.canon, Fmt.f32.canon⟩, snanFl .f32 [p.m, q.m])
  else
    let mx := (fMinMax .f32 true p.m q.m).bits
    let x1 := msFactor p.m mx
    let x2 := msFactor q.m mx
    let p1 := (decodeF .f32 p.s).mul (decodeF .f32 x1.bits)
    let p2 := (decodeF .f32 q.s).mul (decodeF .f32 x2.bits)
    let s := p1.1.add p2.1 .rne
    let r := finish .f32 [p.s, q.s] (s.1, p1.2 || p2.2 || s.2) .rne 0
    (⟨mx, r.bits⟩, r.fl ||| x1.fl ||| x2.fl)

end Sys2Proof.Machine
end

