-- ==== Sys2Proof/Machine/ExactAcc.lean ====
section
/-! DEFINITION. The exact accumulator (spec/04_number_formats.md R103 to R110). -/

namespace Sys2Proof.Machine

/-- An exact accumulator: `A × 2^−320` and the fields of its status word (R103, R104). -/
structure Acc where
  a : BitVec 640
  wrap : BitVec 16
  poison : Bool
  ovf : Bool
  nan : Bool
  ninf : Bool
  pinf : Bool
  deriving DecidableEq, Repr

namespace Acc

/-- Zero, with a zero status word. -/
def zero : Acc := ⟨0, 0, false, false, false, false, false⟩

/-- OVF follows WRAP (R104, R106). -/
def follow (x : Acc) : Acc := { x with ovf := decide (x.wrap ≠ 0) }

/-- Add an integer multiple of `2^−320` with wrap counting (R106). -/
def addInt (x : Acc) (k : Int) : Acc :=
  let s := x.a.toInt + k
  let w : BitVec 16 := if 2 ^ 639 ≤ s then x.wrap + 1 else if s < - (2 ^ 639) then x.wrap - 1 else x.wrap
  follow { x with a := BitVec.ofInt 640 s, wrap := w }

/-- Add an operand; `bad` marks an invalid product (R106). -/
def addVal (x : Acc) (v : Val) (bad : Bool) : Acc :=
  if bad then follow { x with nan := true } else
  match v with
  | .nan => follow { x with nan := true }
  | .inf true => follow { x with ninf := true }
  | .inf false => follow { x with pinf := true }
  | .fin neg n d =>
    let k : Nat := n * 2 ^ 320 / d
    x.addInt (if neg then - Int.ofNat k else Int.ofNat k)

/-- Add the exact product of two patterns of one format (R106). -/
def addMul (x : Acc) (f : Fmt) (neg : Bool) (p q : Nat) : Acc :=
  let r := (decodeF f p).mul (decodeF f q)
  x.addVal (if neg then r.1.neg else r.1) r.2

/-- Combine two accumulators (R107). -/
def combine (x y : Acc) : Acc :=
  let z := x.addInt y.a.toInt
  let w := z.wrap + y.wrap
  { a := z.a, wrap := w, poison := x.poison || y.poison, ovf := decide (w ≠ 0), nan := x.nan || y.nan,
    ninf := x.ninf || y.ninf, pinf := x.pinf || y.pinf }

/-- The status word of R104. -/
def status (x : Acc) : Nat :=
  x.wrap.toNat * 2 ^ 16 + x.poison.toNat * 16 + x.ovf.toNat * 8 + x.nan.toNat * 4
    + x.ninf.toNat * 2 + x.pinf.toNat

/-- The 96-byte image of R105. -/
def image (x : Acc) : List (BitVec 8) :=
  bytesLE 80 x.a.toNat ++ bytesLE 8 x.status ++ bytesLE 8 0

/-- Read an image; an inconsistent one is taken with POISON set and its other fields as read (R110). -/
def ofImage (bs : List (BitVec 8)) : Acc :=
  let a := ofBytesLE (bs.take 80)
  let st := ofBytesLE ((bs.drop 80).take 8)
  let rest := ofBytesLE ((bs.drop 88).take 8)
  let wrap := fld st 16 16
  let bad := rest ≠ 0 || fld st 32 32 ≠ 0 || fld st 5 11 ≠ 0 || (bitAt st 3 != decide (wrap ≠ 0))
  { a := BitVec.ofNat 640 a, wrap := BitVec.ofNat 16 wrap, poison := bitAt st 4 || bad,
    ovf := bitAt st 3, nan := bitAt st 2, ninf := bitAt st 1, pinf := bitAt st 0 }

/-- Cases 2 and 3 of R108, which set NF (R109). -/
def nonFinite (x : Acc) : Bool := x.nan || x.ninf || x.pinf

/-- Extraction to a format when POISON is clear (R108, cases 2 to 5; R109). -/
def extract (x : Acc) (f : Fmt) (mode : Rm) (h : Nat) : Res :=
  if x.nan || (x.pinf && x.ninf) then ⟨f.canon, flNV ||| flNF⟩
  else if x.pinf then ⟨f.infBits, flNF⟩
  else if x.ninf then ⟨f.signBit + f.infBits, flNF⟩
  else if x.wrap ≠ 0 then
    ⟨(if x.wrap.toInt < 0 then f.signBit else 0) + f.infBits, flOF ||| flNX⟩
  else
    let k := x.a.toInt
    roundTo (.fin (k < 0) k.natAbs (2 ^ 320)) f mode h

end Acc
end Sys2Proof.Machine
end

