-- ==== Sys2Proof/Machine/State.lean ====
section
/-! DEFINITION. The state of the package: memory, threads, partitions, facets, engines, fabric and management,
each piece named by the rule of spec/ that gives it, with `State.reset`, the package after power-on. -/

namespace Sys2Proof.Machine

/-! ### Threads -/

/-- What a fault is (R437): the code, with the fields R487 records. -/
structure Trap where
  code : Nat
  addr : BitVec 64 := 0
  acc : Nat := 0
  detail : BitVec 64 := 0
  deriving DecidableEq, Repr

/-- Kinds of access by the rights they need (R363, R487). -/
inductive Acc1 where
  | read | write | fetch | atomic
  deriving DecidableEq, Repr

/-- A page of virtual addresses that an instruction's enumeration translated, of the size of the leaf's level, and the key of its first byte
(R361, R364, R371). -/
structure PageAt where
  page : Nat
  kind : Acc1
  key : Nat
  level : Nat := 0
  deriving DecidableEq, Repr

/-- A strip of a read stream read ahead of V (R258, R365): the memory patterns of elements from `first` on, the fault of the element
after them where its translation failed, and the pages translated for it. -/
structure Strip where
  reg : BitVec 6
  first : Nat
  vals : List Nat
  bad : Option Trap := none
  pages : List PageAt := []
  deriving DecidableEq, Repr

/-- A stream-block descriptor (R250). -/
structure StreamDesc where
  base : BitVec 64
  strides : List (BitVec 64)
  bounds : List (BitVec 32)
  ndim : BitVec 8
  fmt : BitVec 8
  dir : BitVec 8
  grp : BitVec 8
  deriving DecidableEq, Repr

/-- A bound stream block: its descriptor, its register and the control thread's POS (R255). -/
structure StreamBlk where
  desc : StreamDesc
  reg : BitVec 6
  pos : BitVec 64
  deriving DecidableEq, Repr

/-- A vector-queue entry with everything it captured (R163, R442). -/
structure QEntry where
  instr : Instr
  pc : BitVec 64
  ga : BitVec 64 := 0
  gb : BitVec 64 := 0
  gc : BitVec 64 := 0
  seed : BitVec 64 := 0
  vl : BitVec 14 := 0
  vtype : BitVec 6 := 0
  frm : BitVec 3 := 0
  xrm : BitVec 2 := 0
  ver : BitVec 16 := 0
  image : BitVec 256 := 0
  posD : BitVec 64 := 0
  posA : BitVec 64 := 0
  posB : BitVec 64 := 0
  vstart : BitVec 14 := 0
  /-- bit [15] of bytes [127:120] (R442) -/
  started : Bool := false
  /-- the push sequence number (R163) -/
  seq : BitVec 64 := 0
  /-- the entry's effect is complete and it waits to commit (R164) -/
  done : Bool := false
  /-- the token and the vector-queue entries were popped by an earlier start (R263, R289) -/
  popped : Bool := false
  /-- it performs its elements and stands between two of them: those below VSTART are performed (R187) -/
  live : Bool := false
  /-- VSTART when its present start began -/
  base : BitVec 14 := 0
  /-- of a live entry: the pages that its run-ahead step translated, and the lowest element or index that it found failing (R364, R371) -/
  pages : List PageAt := []
  stopAt : Option (Nat × Trap) := none
  /-- the entry of the chain that a replay is at has popped its token and its queue entries -/
  subPopped : Bool := false
  /-- the thread cycle from which its trap is taken though the control thread can still issue (log entry 83) -/
  trapFrom : Nat := 0
  strips : List Strip := []
  /-- a result that the commit writes to a general register (R192) -/
  result : Option (BitVec 64) := none
  /-- the fault the entry met, and the element it stopped at; the trap is taken when the entry is the oldest (R443) -/
  fault : Option Trap := none
  /-- the bound stream blocks that it touches; for VREPLAY every bound block with its position at the push (R255, R256) -/
  blks : List StreamBlk := []
  /-- the queue registers that its vector operands are bound to, by first register (R263) -/
  qs : List (BitVec 6 × Nat) := []
  /-- values that the commit pushes into queue registers (R262, R263) -/
  outq : List (Nat × List (BitVec 64)) := []
  /-- places in queue registers that a started entry holds for what its commit pushes (R264; log entry 84) -/
  room : List (Nat × Nat) := []
  /-- TIME at the start of a fabric instruction (R428) -/
  began : BitVec 64 := 0
  /-- its fault sets SKIP (R426, R430) -/
  skip : Bool := false
  /-- of a VREPLAY under way: the positions it has reached in its blocks (R255) -/
  repPos : List (BitVec 64) := []
  /-- the V-stream stores of its present turn are not performed at once (R391, R398) -/
  late : Bool := false
  deriving DecidableEq, Repr

/-- A V-stream store that is executed and not yet performed: its entry, the key of its first byte, and its bytes (R275, R391). -/
structure VStore where
  seq : BitVec 64
  key : Nat
  bytes : List (BitVec 8)
  deriving DecidableEq, Repr

/-- The streams of a control thread (R133). -/
inductive Side where
  | c | v | a
  deriving DecidableEq, Repr

/-- A store of which some bytes are performed and the others are not yet: the slot and the stream it belongs to, its width, the key of its first
byte, and the bytes that are left (R400). -/
structure TornStore where
  slot : Nat
  side : Side
  key : Nat
  width : Nat
  rest : List (Nat × BitVec 8)
  deriving DecidableEq, Repr

/-- The state of a running LOOPN nest (R139, R142, R441). -/
structure Nest where
  counts : List (BitVec 32)
  tuple : List (BitVec 32)
  start : BitVec 64
  after : BitVec 64
  body : List Instr
  pos : Nat
  d : BitVec 5
  a : BitVec 5
  deriving DecidableEq, Repr

/-- A queue register: its entries, oldest first, and the registers bound to it (R254, R261). -/
structure QReg where
  entries : List (BitVec 64) := []
  general : Option (BitVec 5) := none
  vector : Option (BitVec 6) := none
  deriving DecidableEq, Repr

/-- Stores that a write stream owes for one entry, by physical address, ascending position (R259), and the token queues that
retirements push into once they are performed (R290). -/
structure OwedStores where
  seq : BitVec 64
  stores : List (Nat × List (BitVec 8))
  toks : List Nat := []
  deriving DecidableEq, Repr

/-- An entry of the combining buffer: a physical word address, data and byte mask (R405, R447). -/
structure CombEntry where
  word : Nat
  data : BitVec 64
  mask : BitVec 8
  deriving DecidableEq, Repr

/-- A translation that combined bytes were stored through: its address space, an address on its page, the level of the page, and whether it
is global (R370, R405). -/
structure StoredVia where
  asid : BitVec 16
  va : BitVec 64
  level : Nat
  glob : Bool
  deriving DecidableEq, Repr

/-- An accumulator tile bound to a handle (R223, R228). -/
structure BoundTile where
  /-- the facet's tile, 0 or 1 -/
  tile : Nat
  /-- the 32 × 32 exact accumulators by 32 × row + column -/
  acc : Cells Acc := []
  /-- the active plane, 0 or 1, and each plane's cells and format -/
  active : Bool := false
  plane0 : Cells (BitVec 32) := []
  plane1 : Cells (BitVec 32) := []
  fmt0 : BitVec 2 := 0
  fmt1 : BitVec 2 := 0
  deriving DecidableEq, Repr

/-- The reply of a scalar atomic that the thread awaits (R374). -/
structure AmoReply where
  d : BitVec 5
  value : BitVec 64
  fl : Flg
  deriving DecidableEq, Repr

/-- What a placed thread does (R144, R443, R445). -/
inductive Run where
  | ready
  /-- blocked in the instruction, which uses no issue turns (R165) -/
  | blocked (i : Instr)
  /-- halted, by the debugger or a double trap (R439, R445) -/
  | halted
  /-- being saved: stopped as R449 gives, with the slot not yet free; a halted thread stays halted (R445) -/
  | saving (halted : Bool)
  /-- placed again, and waiting for tiles to bind its handles to (R248) -/
  | rebind
  deriving DecidableEq, Repr

/-- A control thread that is placed on a slot or whose image is saved. -/
structure Thread where
  /-- the global slot index (R15) -/
  slot : Nat
  part : Nat
  /-- the identifier of its launch and its logical rank in it (R148) -/
  launch : Nat
  rank : Nat
  run : Run := .ready
  pc : BitVec 64
  g : Vector (BitVec 64) 32 := Vector.replicate 32 0
  -- status registers (R117)
  frm : BitVec 3 := 0
  xrm : BitVec 2 := 0
  fflags : BitVec 6 := 0
  sat : Bool := false
  seed : BitVec 64 := 0
  carry : BitVec 32 := 0
  sup : Bool := false
  vempty : Bool := false
  det : Bool := false
  pe : Bool := false
  prioMax : BitVec 2 := 0
  level : BitVec 2 := 0
  weight : BitVec 5 := 4
  aspace : BitVec 64 := 0
  -- the control thread's vector configuration (R171 to R174, R73)
  vtype : BitVec 6 := 2
  vl : BitVec 14 := 0
  splitC : BitVec 2 := 2
  lvd : BitVec 6 := 0
  nest : Option Nest := none
  amo : Option AmoReply := none
  -- the vector side
  vstart : BitVec 14 := 0
  splitV : BitVec 2 := 2
  queue : List QEntry := []
  pushSeq : BitVec 64 := 0
  vreg : Cells (BitVec 8) := []
  hw : Vector (BitVec 14) 64 := Vector.replicate 64 0
  m : Vector (BitVec 8192) 8 := Vector.replicate 8 0
  chain : List QEntry := []
  recording : Bool := false
  /-- a running VREPLAY: repetitions remaining and the position in the buffer (R222) -/
  replay : Option (BitVec 16 × BitVec 4) := none
  /-- the entries that a trap moved into the frame block: the frame does not hold the blocks and queue registers that they
  touch (R255, R263) -/
  held : List QEntry := []
  cb : Vector (BitVec 256) 4 := Vector.replicate 4 0
  treg : Cells (BitVec 32) := []
  -- accumulator handles: the control thread's view and the binding (R223, R226)
  view0 : Bool := false
  view1 : Bool := false
  h0 : Option BoundTile := none
  h1 : Option BoundTile := none
  -- bank sets, TREE and ADDR (R295, R309)
  b : Vector (BitVec 128) 8 := Vector.replicate 8 0
  tree : BitVec 64 := 7
  treeAddr : BitVec 64 := 0
  -- group registers and fabric stream registers (R413, R416)
  n : Vector (BitVec 256) 8 := Vector.replicate 8 0
  f : Vector (BitVec 256) 4 := Vector.replicate 4 0
  -- streams and queue registers (R250 to R265)
  streams : Vector (Option StreamBlk) 8 := Vector.replicate 8 none
  q : Vector QReg 8 := Vector.replicate 8 {}
  owed : List OwedStores := []
  -- token counts by 4 × producer + consumer, and the slots reserved (R288, R290)
  tok : Vector (BitVec 8) 16 := Vector.replicate 16 0
  tokRes : Vector (BitVec 8) 16 := Vector.replicate 16 0
  -- determinism (R405, R406)
  comb : List CombEntry := []
  combVia : List StoredVia := []
  drainNo : Nat := 0
  draining : Bool := false
  /-- addresses of the instructions whose implicit drain is complete, though they have not completed themselves (R406) -/
  drainedAt : List (BitVec 64) := []
  -- chord runs (R321)
  chOut : Nat := 0
  chStatus : BitVec 8 := 0
  chFlags : BitVec 8 := 0
  /-- the barrier, switch or exit of the blocked instruction has counted (R155, R351, R443) -/
  arrived : Bool := false
  /-- the threads of the facet that must issue once before a YIELD ends (R160) -/
  yieldFor : Option (List Nat) := none
  /-- the thread is to be saved: its facet was marked failing (R454), or it offered its slot in supervisor mode (R160, R450) -/
  evict : Bool := false
  /-- registers that its next image saves as zero (R454) -/
  lost : List ErrReg := []
  /-- C-stream stores that are executed and not yet performed, oldest first, by the key of their first byte (R133, R391) -/
  cbuf : List (Nat × List (BitVec 8)) := []
  /-- the translations that these were stored through (R370) -/
  cvia : List StoredVia := []
  /-- the version that a blocked VPUBL.wait took at its start (R349) -/
  pubV : Option (BitVec 16) := none
  /-- V-stream stores of uncommitted entries that are not yet performed, oldest first (R275, R391) -/
  vbuf : List VStore := []
  /-- the thread cycle since which the thread can issue (R165) -/
  readyAt : Nat := 0
  /-- the thread cycle since which nothing keeps the next step of its oldest entry (R430) -/
  workAt : Nat := 0
  deriving DecidableEq, Repr

/-! ### Partitions -/

/-- Members of a group: whole launches, single threads, and the threads that left, each by launch and rank (R148, R154). -/
structure Members where
  /-- launches all of whose ranks are members, with their counts -/
  whole : List (Nat × Nat) := []
  plus : List (Nat × Nat) := []
  minus : List (Nat × Nat) := []
  deriving DecidableEq, Repr

/-- A barrier or switch episode: its participants when it opened and those who arrived or left (R155, R351). -/
structure Episode where
  parts : Members
  arrived : List (Nat × Nat) := []
  left : List (Nat × Nat) := []
  /-- an arrival was by TOKSW, with the minima given (R351) -/
  switch : Bool := false
  minima : List (BitVec 16) := []
  /-- every participant has arrived, and the switch waits for LATEST (R351) -/
  waits : Bool := false
  deriving DecidableEq, Repr

/-- An arrival that counts towards the next episode. -/
structure Early where
  launch : Nat
  rank : Nat
  switch : Bool
  min : Option (BitVec 16)
  deriving DecidableEq, Repr

/-- A thread that waits to leave a completed episode: the earliest TIME it may, and its result (R155, R351, R460). -/
structure Leaver where
  launch : Nat
  rank : Nat
  time : Nat
  result : BitVec 64
  deriving DecidableEq, Repr

/-- A group of a partition (R154). -/
structure Group where
  id : BitVec 32
  members : Members := {}
  episode : Option Episode := none
  /-- arrivals that count towards the next episode (R155) -/
  early : List Early := []
  /-- participants that a completed episode releases in order (R460) -/
  leaving : List Leaver := []
  deriving DecidableEq, Repr

/-- A live launch (R147, R148). -/
structure Launch where
  id : Nat
  /-- the acceptance number: a smaller one was accepted earlier (R149) -/
  order : Nat
  entry : BitVec 64
  args : BitVec 64
  count : Nat
  group : BitVec 32
  prio : BitVec 2
  preempt : Bool
  det : Bool
  pe : Bool
  aspace : BitVec 64
  /-- the lowest rank never placed -/
  next : Nat := 0
  exited : Nat := 0
  /-- the drains each rank has completed, under determinism (R406) -/
  drains : List (Nat × Nat) := []
  /-- ranks that have exited -/
  gone : List Nat := []
  deriving DecidableEq, Repr

/-- A saved thread that waits for a slot: its image and what the image does not hold (R449). -/
structure SavedThread where
  image : BitVec 64
  /-- orders the thread among waiters for tiles (R248) -/
  order : Nat
  thread : Thread
  deriving DecidableEq, Repr

/-- A tiled window of a partition (R325). -/
structure TiledWin where
  vbase : BitVec 64
  ntile : BitVec 32
  map : BitVec 64
  free : BitVec 64
  cap : BitVec 32
  /-- the slots that the free list held when the window was registered: the device takes no other (R11, R326) -/
  slots : List Nat := []
  /-- tiles with their BACK and LOG, as the map held them when the window was registered (R11, R327) -/
  homes : List (Nat × Nat × Nat) := []
  deriving DecidableEq, Repr

/-- A tile in one of the transient states (R328): arriving into `slot`, or leaving. -/
structure Transit where
  win : Nat
  tile : Nat
  arriving : Bool
  slot : BitVec 64
  deriving DecidableEq, Repr

/-- A partition (R145) with its windows, binding, launches and groups. -/
structure Partition where
  valid : Bool := false
  clusters : BitVec 256 := 0
  /-- first global bank and bank count of each entry of RANGES (R145) -/
  ranges : List (Nat × Nat) := []
  lqbase : BitVec 64 := 0
  savebase : BitVec 64 := 0
  /-- the header of the save area and the images of its free list, as they stood at activation; software must not write them
  afterwards (R11, R436) -/
  tvec : BitVec 64 := 0
  fva : BitVec 64 := 0
  freeList : BitVec 64 := 0
  imageCap : BitVec 32 := 0
  images : List Nat := []
  ishape : BitVec 64 := 0
  /-- the partition's lattices are idle, and the part of the full rate to which L has risen otherwise (R456) -/
  idle : Bool := true
  rate : Rat := 1 / 8
  /-- the last arithmetic cycle in which a lattice of the partition performs an array cycle (R456) -/
  lastArray : Nat := 0
  /-- the arithmetic cycle for which the credits stand: of each lattice that has started an instruction, by facet, and of every other
  one (R456) -/
  creditAt : Nat := 0
  credits : List (Nat × Rat) := []
  credit : Rat := 0
  uva : BitVec 64 := 0
  uwlog : BitVec 8 := 0
  cva : BitVec 64 := 0
  lmax : BitVec 64 := 512
  windows : List (Nat × TiledWin) := []
  transit : List Transit := []
  /-- logs whose FILL reached 384 and that compaction has not yet run on, by window and tile (R333) -/
  compacting : List (Nat × Nat) := []
  /-- VBIND: VALID and VER (R347) -/
  bound : Bool := false
  ver : BitVec 16 := 0
  /-- versions whose binding pins have not left, with the accesses that hold them (R343, R345) -/
  oldVers : List Nat := []
  launches : List Launch := []
  groups : List Group := []
  debugger : Bool := false
  deriving DecidableEq, Repr

/-! ### Engines -/

/-- A move descriptor (R280). -/
structure MoveDesc where
  src : BitVec 64
  dst : BitVec 64
  scale : BitVec 64
  sstrides : List (BitVec 64)
  dstrides : List (BitVec 64)
  bounds : List (BitVec 32)
  ndim : Nat
  sfmt : Nat
  dfmt : Nat
  rm : Nat
  sc : Nat
  codebook : BitVec 256
  deriving DecidableEq, Repr

/-- An outstanding tile move (R282 to R284), with what it captured at its start. -/
structure Move where
  id : Nat
  slot : Nat
  launch : Nat
  rank : Nat
  part : Nat
  sup : Bool
  aspace : BitVec 64
  ver : BitVec 16
  seed : BitVec 64
  mode : BitVec 3
  desc : MoveDesc
  /-- the completion object's address; none for g0 -/
  obj : Option (BitVec 64)
  /-- the push sequence number, whose low byte is the TAG -/
  seq : BitVec 64
  /-- the consumer peer of its token -/
  push : Option (BitVec 3)
  /-- positions performed, and the flags gathered -/
  pos : Nat := 0
  flags : BitVec 7 := 0
  /-- 4-bit units of the destination written in the engine's present turn (R284; log entry 86) -/
  used : Nat := 0
  /-- the completion word of a move that has ended and whose write waits for a tile -/
  fin : Option (BitVec 64) := none
  deriving DecidableEq, Repr

/-- A command of a CHRUN: one run on the chord of a bank (R319). -/
structure ChordCmd where
  /-- the CHRUN execution it belongs to -/
  op : Nat
  /-- the set index, the global bank and the within-bank offset of the block -/
  idx : Nat
  bank : Nat
  off : Nat
  seed : BitVec 64
  frm : BitVec 3
  deriving DecidableEq, Repr

/-- A run under way: its parameter block, the positions performed, the reduction's carry, the outputs emitted and the flags (R317). -/
structure ChordPart where
  block : List (BitVec 8)
  pos : Nat
  acc : Acc
  mx : Nat
  outs : Nat
  fl : BitVec 7
  /-- what the last position writes, which the next step performs: the key, and the bytes (R322) -/
  held : Option (Nat × List (BitVec 8)) := none
  deriving DecidableEq, Repr

/-- A chord: the command it runs, how far it has come, and its queue of four places (R319). -/
structure Chord where
  bank : Nat
  running : Option ChordCmd := none
  part : Option ChordPart := none
  queue : List ChordCmd := []
  deriving DecidableEq, Repr

/-- One execution of a CHRUN, until its runs have ended (R319, R320). -/
structure ChrunOp where
  id : Nat
  slot : Nat
  launch : Nat
  rank : Nat
  part : Nat
  sup : Bool
  aspace : BitVec 64
  ver : BitVec 16
  seq : BitVec 64
  obj : Option (BitVec 64)
  push : Option (BitVec 3)
  /-- commands not yet placed, in placing order -/
  unplaced : List ChordCmd
  /-- one more than the highest set index placed so far -/
  top : Nat := 0
  /-- runs placed or to be placed, and runs that have ended -/
  total : Nat
  ended : Nat := 0
  /-- the lowest set index whose run failed, with its cause -/
  failed : Option (Nat × Nat) := none
  flags : BitVec 7 := 0
  /-- the execution completed the instruction -/
  fin : Bool
  deriving DecidableEq, Repr

/-- A thread that waits for a tile, with the number that orders it: its AALLOC's, or its save's (R228, R248). -/
structure Waiter where
  slot : Nat
  order : Nat
  deriving DecidableEq, Repr

/-- The work queue of a facet, oldest item at the steal end first, and its steal cursor (R156, R157). -/
structure Facet where
  items : List (BitVec 63) := []
  cursor : Nat := 0
  /-- the slot-in-facet whose thread issued last, and the first thread cycle in which the next may (R165) -/
  lastIssue : Nat := 3
  nextIssue : Nat := 0
  /-- the slot-in-facet that the lattice served last (R168) -/
  lastLat : Nat := 3
  failing : Bool := false
  soft : Nat := 0
  /-- AALLOC waiters in the order they reached the lattice (R228) -/
  waiters : List Waiter := []
  deriving DecidableEq, Repr

/-! ### Fabric -/

/-- A loaded plan (R418, R464). -/
structure Plan where
  handle : BitVec 32
  part : Nat
  /-- the package number of each member rank -/
  members : List (BitVec 16)
  levels : Nat
  slots : Nat
  latns : BitVec 64
  abtns : BitVec 64
  deriving DecidableEq, Repr

/-- A fabric stream between two ends, or what one member sends another in the collective `coll`: the credits that the sender has spent, and the
slot-free notices on their way to it (R420). -/
structure FStream where
  key : CollKey
  src : BitVec 32
  dst : BitVec 32
  tag : BitVec 16
  /-- the SEQ of the collective -/
  coll : Option (BitVec 32) := none
  spent : Nat := 0
  notices : Nat := 0
  deriving DecidableEq, Repr

/-- What an endpoint sends: a message, or a member's strip of a collective (R421). -/
inductive Payload where
  | msg (m : Message)
  | coll (c : CollChunk)
  deriving DecidableEq, Repr

def Payload.key : Payload → CollKey
  | .msg m => m.key
  | .coll c => c.key

/-- A message or a strip that its sender is sending, chunk by chunk (R421, R430). -/
structure Send where
  slot : Nat
  launch : Nat
  rank : Nat
  seq : BitVec 64
  order : Nat
  load : Payload
  /-- the destination is on this package -/
  here : Bool
  /-- of a collective: how many members it goes to, one chunk to each in turn -/
  per : Nat := 1
  sent : Nat := 0
  total : Nat
  deriving DecidableEq, Repr

/-- A message in a receiver's slots: its chunks arrived, and those still held there. -/
structure Inbox where
  msg : Message
  arrived : Nat
  total : Nat
  held : Nat
  deriving DecidableEq, Repr

/-- A member's strip in a collective, with the ranks that have taken it: the chunks of it that have arrived, of `total` that go to `per` members
in turn, in rank order (R22, R426). -/
structure Contribution where
  chunk : CollChunk
  taken : List Nat := []
  got : Nat := 1
  per : Nat := 1
  total : Nat := 1
  deriving DecidableEq, Repr

/-- The apex of the local plan for one collective: reports by rank, and its decision (R426). -/
structure Apex where
  key : CollKey
  seq : BitVec 32
  count : Nat
  reports : List (Nat × Bool) := []
  /-- what it has sent: go, or abort -/
  decision : Option Bool := none
  /-- the members that have received it -/
  reached : List Nat := []
  deriving DecidableEq, Repr

/-! ### Management -/

/-- A response record (R462): the channel's wire carries it back (R463, R470). -/
structure Response where
  seq : BitVec 64
  result : BitVec 64
  value0 : BitVec 64 := 0
  value1 : BitVec 64 := 0
  deriving DecidableEq, Repr

/-- What is reported through management beside the events (R439, R452, R454; R418 for a retrain, R428 for a failing link). -/
inductive Report where
  | halted (slot : Nat)
  | softError (facet : Nat)
  | replacement (facet : Nat)
  | retrained (port : BitVec 4)
  | linkFailing (port : BitVec 8)
  deriving DecidableEq, Repr

/-- The identity key's algorithm (R469). -/
inductive IdentityKey where
  /-- HSS LMS with SHA-256, an extended asymmetric algorithm of SPDM -/
  | hssLmsSha256
  deriving DecidableEq, Repr

/-- The kinds of SPDM response that R469 supports, with what it fixes of each: the version, major and minor digit; the identity key; the
measurements, which are the firmware digest, the rollback counter and the identification word. -/
inductive SpdmKind where
  | version (v : BitVec 8)
  | capabilities
  | algorithms (key : IdentityKey)
  | digests
  | certificate (key : IdentityKey)
  | challengeAuth (key : IdentityKey)
  | measurements (digest : List (BitVec 8)) (rollback : BitVec 64) (ident : BitVec 32)
  | session
  deriving DecidableEq, Repr

/-- An SPDM response: its wire, what it is, and the number that its free bytes are applied to (log entry 7). -/
structure SpdmResponse where
  port : SpdmPort
  kind : SpdmKind
  bytes : Nat
  deriving DecidableEq, Repr

/-- The PTP port as a time receiver: the times of the last Sync, the egress of its last delay request, and the mean path delay, in
nanoseconds (R433). -/
structure PtpPort where
  role : PtpRole := .receiver
  delay : PtpDelay := .requestResponse
  steps : PtpSteps := .one
  transport : PtpTransport := .ethernet
  /-- origin and ingress of the last Sync; the origin is none while its Follow_Up is awaited -/
  origin : Option (BitVec 64) := none
  ingress : BitVec 64 := 0
  /-- egress of the delay request that is under way -/
  request : Option (BitVec 64) := none
  /-- of a two-step peer: the receipt and the ingress of its answer, whose Follow_Up is awaited -/
  answer : Option (BitVec 64 × BitVec 64) := none
  pathDelay : Int := 0
  deriving DecidableEq, Repr

/-! ### The package -/

/-- A page-table entry that some translation cache of the package holds: the level it was read at, and the virtual page number from
that level on (R366, R371). -/
structure CachedPte where
  asid : BitVec 16
  level : Nat
  vpn : Nat
  pte : Nat
  /-- an entry above it, or itself, is marked G: it belongs to every address space (R361) -/
  glob : Bool
  deriving DecidableEq, Repr

/-- A copy of an aligned word of code: in a facet's instruction buffer, or among the words that the thread of a slot has fetched ahead
(R385, R388). -/
structure CodeCopy where
  facet : Nat
  slot : Option Nat
  va : BitVec 64
  key : Nat
  word : BitVec 32
  deriving DecidableEq, Repr

/-- A turn of the machine: the control pipeline serves a slot, an event comes about, a unit does a part of its work, or a cache takes
or loses a copy (log entry 4). -/
inductive Turn where
  | issue (slot : Nat)
  /-- the control pipeline serves a slot, and the store it executes is not performed yet -/
  | issueHeld (slot : Nat)
  /-- the `j`-th C-stream store that a thread holds is performed; likewise of the V stream -/
  | performStore (slot j : Nat)
  | performV (slot j : Nat)
  /-- the `j`-th store that a thread's write streams owe is performed -/
  | performA (slot j : Nat)
  /-- the `j`-th store that a thread holds or owes on one stream is half performed: the bytes that `mask` names (R400) -/
  | tear (slot : Nat) (side : Side) (j : Nat) (mask : BitVec 64)
  | event (i : Instr)
  /-- as ENTRY_START, but at most `n` elements are performed -/
  | part (slot n : Nat)
  /-- the same, and the V-stream stores made are not performed yet -/
  | partHeld (slot n : Nat)
  /-- an entry behind one that stands between two elements starts, and performs at most `n` elements of those that it may (R194) -/
  | chained (slot n : Nat)
  /-- at most `n` elements of the strips of the entry at place `k` are read ahead -/
  | stripPart (slot k n : Nat)
  /-- the A stream translates the element at `k` positions after POS of a bound block (R365) -/
  | aheadOf (slot : Nat) (blk : BitVec 3) (k : Nat)
  /-- at most `n` positions of a move, or of a chord's run, are performed -/
  | movePart (id n : Nat)
  | chordPart (bank n : Nat)
  /-- the entry at a level of the walk for an address of the slot's thread is cached (R366) -/
  | cachePte (slot level : Nat) (va : BitVec 64)
  /-- a cached entry is replaced -/
  | dropPte (k : Nat)
  /-- the slot's thread fetches a word ahead of its pc, or its facet's buffer takes it (R385) -/
  | copyCode (slot : Nat) (va : BitVec 64) (buffer : Bool)
  /-- a copy of code is replaced -/
  | dropCode (k : Nat)
  deriving DecidableEq, Repr

/-- A region of the version table as it stood at its registration, for the device takes no other addresses and sizes (R11, R339, R340): its
VBASE, SVA and SIZE, and the addresses of its slots by number. -/
structure GivenRegion where
  num : Nat
  vbase : BitVec 64
  sva : BitVec 64
  size : BitVec 64
  slots : List Nat
  deriving DecidableEq, Repr

structure State where
  mem : Memory := []
  threads : List Thread := []
  saved : List SavedThread := []
  parts : Vector Partition 16 := Vector.replicate 16 {}
  /-- facets that differ from the start value, by global index (R15) -/
  facets : List (Nat × Facet) := []
  moves : List Move := []
  chruns : List ChrunOp := []
  chords : List Chord := []
  plans : List Plan := []
  pkgid : BitVec 16 := 0
  fstreams : List FStream := []
  sends : List Send := []
  inbox : List Inbox := []
  contribs : List Contribution := []
  apexes : List Apex := []
  /-- the counter of launches accepted (R149) -/
  accepted : Nat := 0
  /-- the number the next engine operation takes -/
  nextOp : Nat := 0
  hdmbase : BitVec 64 := 0
  /-- base of the registered version table (R339) and the pins made by VPIN, by 4 × region + slot (R353) -/
  vtab : Option (BitVec 64) := none
  vpins : Cells Nat := []
  /-- its regions, as registered -/
  vgiven : List GivenRegion := []
  time : BitVec 64 := 0
  /-- thread cycles since power-on, and the 1/8000 ns that TIME does not show yet (R5, R18, R432) -/
  cyc : Nat := 0
  frac : Nat := 0
  /-- capacities of MEM0 to MEM3 in bytes (R356, R467) -/
  memcap : Vector (BitVec 64) 4 := Vector.replicate 4 0
  /-- events appended so far, and MSI-X vector 0 signalled to the host (R466) -/
  evCount : BitVec 64 := 0
  msix : Bool := false
  /-- the SEQ of the last command on the host and the supervisor channel (R462, R463) -/
  seqHost : BitVec 64 := 0
  seqSup : BitVec 64 := 0
  /-- responses, reports and SPDM responses sent so far, oldest first (R463, R469, R470) -/
  sent : List Response := []
  reports : List Report := []
  spdm : List SpdmResponse := []
  /-- a secured session is open on the DOE mailbox and on the management port (R469, R470) -/
  doeSession : Bool := false
  mgmtSession : Bool := false
  /-- SLEW in A/µs (R458) -/
  slew : BitVec 16 := 600
  /-- PTP lock, whether it was ever gained, and the offset from the grandmaster, TIME less its time (R433, R464) -/
  ptpLocked : Bool := false
  ptpEver : Bool := false
  ptpOffset : BitVec 64 := 0
  ptp : PtpPort := {}
  /-- what slewing has still to add to TIME, in 1/8000 ns -/
  ptpSlew : Int := 0
  /-- Fuond ports that failed (R466) -/
  failedPorts : BitVec 16 := 0
  /-- the firmware that runs, an image stored for the next reset, the fused rollback counter, and recovery (R468) -/
  firmware : List (BitVec 8) := []
  stored : Option (List (BitVec 8)) := none
  rollback : BitVec 64 := 0
  recovery : Bool := false
  /-- the bytes that the host's last CXL.mem read returned (R461) -/
  hostRead : List (BitVec 8) := []
  /-- PTP messages sent (R433) -/
  syncs : Nat := 0
  /-- page-table entries held by the translation caches (R366, R371) -/
  tlb : List CachedPte := []
  /-- words of code held by the instruction buffers, and those fetched ahead (R385, R388) -/
  code : List CodeCopy := []
  /-- a store that is half performed (R400) -/
  torn : Option TornStore := none
  /-- MODEL: the turns that come next (log entry 4) -/
  agenda : List Turn := []
  /-- MODEL: the slot whose control pipeline issues next (log entry 4) -/
  cur : Nat := 0
  /-- MODEL: the counter of free values (log entry 5) -/
  ctr : Nat := 0
  deriving DecidableEq, Repr

/-- No step of this machine ends in a fault: a fault of the spec is a trap that a thread takes (R437 to R439), and a double trap
halts that thread alone. The type has no constructor. -/
inductive Fault where
  deriving DecidableEq, Repr

/-- What the model refuses by name. -/
inductive Refusal where
  /-- `exec` answers this for a constructor that has no meaning yet. Safe. -/
  | notModelled (mnemonic : String)
  deriving DecidableEq, Repr

/-- The package after power-on (R468): no partition, no thread, memory with nothing listed. -/
def State.reset : State := {}

end Sys2Proof.Machine
end

