-- ==== Sys2Proof/Machine/Ops.lean ====
section
/-! DEFINITION. The named operations over the state: threads, registers, queue registers, the control pipeline's advance,
waiting, the frame block, taking a trap and returning from one (spec/05_general_registers.md, spec/06_control_threads.md,
spec/20_traps_and_context.md). -/

namespace Sys2Proof.Machine
open Sys2Proof

noncomputable section

/-- The outcome of a step of this machine. -/
abbrev Out := Host.Outcome State Fault Refusal

/-! ### Threads -/

/-- The thread placed on a slot. -/
def State.thread? (s : State) (slot : Nat) : Option Thread := s.threads.find? (fun t => t.slot == slot)

/-- A list with the element of the same slot replaced. -/
def replaceThread : List Thread → Thread → List Thread
  | [], _ => []
  | u :: us, t => if u.slot = t.slot then t :: us else u :: replaceThread us t

/-- Write back a placed thread. -/
def State.setThread (s : State) (t : Thread) : State := { s with threads := replaceThread s.threads t }

/-- The partition of a thread. -/
def State.partOf (s : State) (t : Thread) : Partition := s.parts.toList.getD t.part {}

def State.setPart (s : State) (p : Nat) (v : Partition) : State :=
  { s with parts := s.parts.setIfInBounds p v }

def Run.isSaving : Run → Bool
  | .saving _ => true
  | _ => false

def Thread.facet (t : Thread) : Nat := t.slot / Config.slotsPerFacet
def Thread.cluster (t : Thread) : Nat := t.facet / Config.facetsPerCluster

/-- The state of facet `f`; one not listed is as at the start (R157: the cursor starts at the facet's own index). -/
def State.facet (s : State) (f : Nat) : Facet :=
  ((s.facets.find? (fun p => p.1 == f)).map Prod.snd).getD { cursor := f }

def State.setFacet (s : State) (f : Nat) (v : Facet) : State :=
  { s with facets := (f, v) :: s.facets.filter fun p => p.1 != f }

/-- A fresh value of the counter that free values are applied to (log entry 5). -/
def State.tick (s : State) : State := { s with ctr := s.ctr + 1 }

/-- VCP: the push sequence number of the oldest entry that has not committed (R164). -/
def Thread.vcp (t : Thread) : BitVec 64 :=
  match t.queue with
  | e :: _ => e.seq
  | [] => t.pushSeq

/-! ### Registers -/

/-- A general register; g0 reads as zero (R114). -/
def Thread.rd (t : Thread) (r : Reg) : BitVec 64 := if r = 0 then 0 else t.g.toList.getD r.toNat 0

/-- Write a general register; a write to g0 is discarded (R114). -/
def Thread.wr (t : Thread) (r : Reg) (v : BitVec 64) : Thread :=
  if r = 0 then t else { t with g := t.g.setIfInBounds r.toNat v }

/-- The queue register that general register `r` is bound to (R254). -/
def Thread.boundQ (t : Thread) (r : Reg) : Option Nat :=
  (List.range 8).find? fun i => ((t.q.toList.getD i {}).general == some r)

def Thread.qAt (t : Thread) (i : Nat) : QReg := t.q.toList.getD i {}
def Thread.setQ (t : Thread) (i : Nat) (v : QReg) : Thread := { t with q := t.q.setIfInBounds i v }

/-- Depth of a queue register (R261). -/
def qDepth (i : Nat) : Nat := if i < 4 then 16 else 64

/-- Queue registers that the sources name, each once (R262). -/
def Thread.srcQueues (t : Thread) (srcs : List Reg) : List Nat := (srcs.filterMap t.boundQ).dedup

/-- Pop one entry of each listed queue register (R262). -/
def Thread.popQs (t : Thread) : List Nat → Thread
  | [] => t
  | i :: is => (t.setQ i { t.qAt i with entries := (t.qAt i).entries.tail }).popQs is

/-- The value a source field delivers: the oldest entry of its queue register, or the register (R262). -/
def Thread.src (t : Thread) (r : Reg) : BitVec 64 :=
  match t.boundQ r with
  | some i => (t.qAt i).entries.headD 0
  | none => t.rd r

/-- Write a result: the register, and a push into the queue register it is bound to (R262). -/
def Thread.result (t : Thread) (r : Reg) (v : BitVec 64) : Thread :=
  match t.boundQ r with
  | some i => (t.setQ i { t.qAt i with entries := (t.qAt i).entries ++ [v] }).wr r v
  | none => t.wr r v

/-- Places of queue register `i` that are held: by started entries for their commits, and by an atomic for its reply (R262, R264;
log entry 84). -/
def Thread.heldRoom (t : Thread) (i : Nat) : Nat :=
  (t.queue.map fun e => ((e.room.filter fun p => p.1 == i).map Prod.snd).sum).sum
    + (match t.amo with
      | some a => if t.boundQ a.d = some i then 1 else 0
      | none => 0)

/-- Whether a push into the destination's queue register finds no room once the sources are popped (R262, R264). -/
def Thread.dstFull (t : Thread) (popped : List Nat) (r : Reg) : Bool :=
  match t.boundQ r with
  | some i => qDepth i ≤ (t.qAt i).entries.length + t.heldRoom i - (if popped.contains i then 1 else 0)
  | none => false

/-- The general register that a queued instruction writes at commit (R192, R277). -/
def pendingReg : Instr → Option Reg
  | .vext o => some o.d
  | .mpopc o => some o.d
  | .mffs o => some o.d
  | .vldff o => some o.b
  | .aalloc o => some o.d
  | .aallocWait o => some o.d
  | _ => none

/-- A register that an uncommitted queue entry will write (R192). -/
def Thread.isPending (t : Thread) (r : Reg) : Bool :=
  r != 0 && t.queue.any fun e => pendingReg e.instr == some r

/-- An AALLOC that has not committed lets the control thread issue nothing (R228). -/
def Thread.awaitsTile (t : Thread) : Bool :=
  t.queue.any fun e => match e.instr with
    | .aalloc _ => true
    | .aallocWait _ => true
    | _ => false

/-- The control thread can issue: it is neither blocked nor waiting for a tile. -/
def Thread.issues (t : Thread) : Bool := t.run == .ready && !t.awaitsTile

/-! ### The vector configuration (R170 to R173) -/

/-- RLEN and the number of registers of a split code (R170). -/
def rlenOf (c : BitVec 2) : Nat := 8192 / 2 ^ c.toNat
def nregsOf (c : BitVec 2) : Nat := 8 * 2 ^ c.toNat

/-- Element width in bits, group, and the policy bits of a VTYPE (R172). -/
def ewCode (v : BitVec 6) : Nat := fld v.toNat 0 2
def ewBits (v : BitVec 6) : Nat := 8 * 2 ^ ewCode v
def grpOf (v : BitVec 6) : Nat := 2 ^ fld v.toNat 2 2
def tailZero (v : BitVec 6) : Bool := bitAt v.toNat 4
def maskZero (v : BitVec 6) : Bool := bitAt v.toNat 5

/-- VLMAX (R173). -/
def vlmax (v : BitVec 6) (split : BitVec 2) : Nat := min (rlenOf split * grpOf v * 8 / ewBits v) 8192

/-! ### Waiting -/

/-- The thread stays at its instruction and uses no issue turns; the instruction executes again from its start (R165, R443). -/
def wait (s : State) (t : Thread) (i : Instr) : Out := .next (s.setThread { t with run := .blocked i })

/-! ### Program counter -/

/-- The length in bytes of an instruction (R47). -/
def instrLen (i : Instr) : Nat :=
  match encode i with
  | some c => c.len
  | none => 0

/-- The next tuple of a nest in lexicographic order, the last level fastest; none when every tuple has run (R139). -/
def nextTuple : List (BitVec 32) → List (BitVec 32) → Option (List (BitVec 32))
  | c :: cs, x :: xs =>
    match nextTuple cs xs with
    | some ys => some (x :: ys)
    | none => if x + 1 < c then some ((x + 1) :: cs.map fun _ => 0) else none
  | _, _ => none

/-- Write the index registers of a tuple; D = 0 writes none (R139). -/
def Thread.wrIndices (t : Thread) (d : Reg) : List (BitVec 32) → Thread
  | [] => t
  | x :: xs => (t.wr d (x.setWidth 64)).wrIndices (d + 1) xs

def Thread.startIter (t : Thread) (n : Nest) : Thread := { t with nest := some { n with pos := 0 }, pc := n.start }

/-- The registers that hold the indices of a nest; D = 0 names none (R138). -/
def Nest.regs (n : Nest) : List Reg :=
  if n.d = 0 then [] else (List.range n.tuple.length).map fun j => n.d + BitVec.ofNat 5 j

/-- Before the first instruction of an iteration its index registers are written; one that a queue entry will write is waited for
(R139, R192). A nest that resumes at position 0 has them written again (log entry 37). -/
def Thread.enterIter (t : Thread) : Option Thread :=
  match t.nest with
  | none => some t
  | some n =>
    if n.pos ≠ 0 then some t
    else if n.regs.any t.isPending then none
    else some (if n.d = 0 then t else t.wrIndices n.d n.tuple)

/-- Continue after an instruction of `len` bytes: past it, or on through the running nest (R139). -/
def Thread.advance (t : Thread) (len : Nat) : Thread :=
  match t.nest with
  | none => { t with pc := t.pc + BitVec.ofNat 64 len }
  | some n =>
    if n.pos + 1 < n.body.length then
      { t with pc := t.pc + BitVec.ofNat 64 len, nest := some { n with pos := n.pos + 1 } }
    else
      match nextTuple n.counts n.tuple with
      | some u => t.startIter { n with tuple := u }
      | none => { t with pc := n.after, nest := none }

/-! ### The frame block (R436, R440 to R442) -/

def State.frameBase (s : State) (t : Thread) : Nat :=
  (s.partOf t).savebase.toNat + 0x10000 + 0x4000 * t.slot

/-- The instruction words of a saved entry: base word low, prefix word high (R442). -/
def entryWords (i : Instr) : Nat :=
  match encode i with
  | some c => if c.len = 8 then c.bits / 2 ^ 32 + c.bits % 2 ^ 32 * 2 ^ 32 else c.bits
  | none => 0

def QEntry.cfgWord (e : QEntry) : Nat :=
  e.vl.toNat + e.vtype.toNat * 2 ^ 16 + e.frm.toNat * 2 ^ 24 + e.xrm.toNat * 2 ^ 28 + e.ver.toNat * 2 ^ 32

/-- The 128 bytes of a saved queue entry (R442). -/
def QEntry.bytes (e : QEntry) : List (BitVec 8) :=
  bytesLE 8 (entryWords e.instr) ++ bytesLE 8 e.pc.toNat ++ bytesLE 8 e.ga.toNat ++ bytesLE 8 e.gb.toNat
    ++ bytesLE 8 e.seed.toNat ++ bytesLE 8 e.cfgWord ++ bytesLE 8 e.gc.toNat ++ bytesLE 8 0
    ++ bytesLE 32 e.image.toNat ++ bytesLE 8 e.posD.toNat ++ bytesLE 8 e.posA.toNat ++ bytesLE 8 e.posB.toNat
    ++ bytesLE 8 (e.vstart.toNat + if e.popped then 2 ^ 15 else 0)

/-- Re-join saved instruction words and decode them (R442, R446). -/
def wordsInstr (w : Nat) : Option Instr :=
  let base := w % 2 ^ 32
  let pre := w / 2 ^ 32
  if pre = 0 then (if base % 4 = 1 then decode base else none)
  else if pre % 4 = 3 then decode (pre + base * 2 ^ 32) else none

/-- Read a saved entry; a started one does not pop again (R263, R289, R446). -/
def readEntry (bs : List (BitVec 8)) : Option QEntry :=
  let w (k n : Nat) : Nat := ofBytesLE ((bs.drop k).take n)
  (wordsInstr (w 0 8)).map fun i =>
    let cfg := w 40 8
    let st := w 120 8
    { instr := i, pc := .ofNat 64 (w 8 8), ga := .ofNat 64 (w 16 8), gb := .ofNat 64 (w 24 8),
      seed := .ofNat 64 (w 32 8), vl := .ofNat 14 (fld cfg 0 14), vtype := .ofNat 6 (fld cfg 16 6),
      frm := .ofNat 3 (fld cfg 24 3), xrm := .ofNat 2 (fld cfg 28 2), ver := .ofNat 16 (fld cfg 32 16),
      gc := .ofNat 64 (w 48 8), image := .ofNat 256 (w 64 32), posD := .ofNat 64 (w 96 8),
      posA := .ofNat 64 (w 104 8), posB := .ofNat 64 (w 112 8), vstart := .ofNat 14 (fld st 0 14),
      popped := bitAt st 15 }

/-- Reserved bits of a saved entry that must be zero, and the limit on its VSTART (R442, R446). -/
def entryOk (bs : List (BitVec 8)) : Bool :=
  let w (k n : Nat) : Nat := ofBytesLE ((bs.drop k).take n)
  let cfg := w 40 8
  let st := w 120 8
  w 56 8 == 0 && fld cfg 14 2 == 0 && fld cfg 22 2 == 0 && fld cfg 27 1 == 0 && fld cfg 30 2 == 0
    && fld cfg 48 16 == 0 && fld st 14 1 == 0 && fld st 16 48 == 0 && fld st 0 14 < 8192

/-- The nest fields of a frame (R441). -/
def nestBytes : Option Nest → List (BitVec 8)
  | none => bytesLE 64 0
  | some n =>
    let words (l : List (BitVec 32)) : List (BitVec 8) :=
      ((List.range 6).map fun i => bytesLE 4 (l.getD i 0).toNat).flatten
    words n.counts ++ words n.tuple ++ bytesLE 8 n.start.toNat
      ++ bytesLE 8 (n.pos + (n.body.length - 1) * 2 ^ 8 + n.counts.length * 2 ^ 16 + n.d.toNat * 2 ^ 24
        + n.a.toNat * 2 ^ 32)

/-- The chain state of a frame (R441). -/
def chainWord (r : Option (BitVec 16 × BitVec 4)) : Nat :=
  match r with
  | none => 0
  | some (rem, pos) => rem.toNat + pos.toNat * 2 ^ 16 + 2 ^ 20

/-- The CAUSE word (R441). -/
def causeWord (tr : Trap) (v pm skip nest dbl lost : Bool) : Nat :=
  tr.code % 64 + encBool v * 2 ^ 8 + encBool pm * 2 ^ 9 + tr.acc % 4 * 2 ^ 10 + encBool skip * 2 ^ 12
    + encBool nest * 2 ^ 13 + encBool dbl * 2 ^ 14 + encBool lost * 2 ^ 15

/-- What a frame block records beside the thread's own state. -/
structure FrameInfo where
  cause : Nat
  pc : BitVec 64
  epc : BitVec 64
  addr : BitVec 64
  detail : BitVec 64
  deriving DecidableEq, Repr

/-- The first 144 bytes of the frame fields (R441). -/
def frameFields (t : Thread) (f : FrameInfo) : List (BitVec 8) :=
  bytesLE 8 f.cause ++ bytesLE 8 f.pc.toNat ++ bytesLE 8 f.epc.toNat ++ bytesLE 8 t.vcp.toNat
    ++ bytesLE 8 f.addr.toNat ++ bytesLE 8 f.detail.toNat ++ bytesLE 8 t.queue.length ++ bytesLE 8 0
    ++ nestBytes t.nest ++ bytesLE 16 (chainWord t.replay)

/-- Write the frame block at `base`: the fields, g0 to g31 and the saved entries; reserved bytes become zero and the places
of entries beyond NQ keep their bytes (R440, log entry 21). -/
def writeFrame (m : Memory) (base : Nat) (t : Thread) (f : FrameInfo) : Memory :=
  let m := ((m.zero base 0x400).zero (base + 0x2400) 7168).zero (base + 0x400) (128 * t.queue.length)
  let m := m.writeBytes base (frameFields t f)
  let m := m.writeBytes (base + 0x200) (((List.range 32).map fun i => bytesLE 8 (t.rd (.ofNat 5 i)).toNat).flatten)
  m.writeBytes (base + 0x400) ((t.queue.map QEntry.bytes).flatten)

/-- A 64-bit field of a block of bytes. -/
def word64 (bs : List (BitVec 8)) (off : Nat) : Nat := ofBytesLE ((bs.drop off).take 8)

/-- Bytes `off` to `off + n − 1` of a block are zero. -/
def zeroAt (bs : List (BitVec 8)) (off n : Nat) : Bool := ((bs.drop off).take n).all (· == 0)

def entryBytes (bs : List (BitVec 8)) (i : Nat) : List (BitVec 8) := (bs.drop (0x400 + 128 * i)).take 128

/-- What ERET asks of a frame block: NQ, its reserved bits and bytes, the entries' VSTART; and that every entry decodes and the nest
can be restored (R446; log entry 24). -/
def frameOk (bs : List (BitVec 8)) : Bool :=
  let cause := word64 bs 0
  let nq := word64 bs 48
  let pos := word64 bs 120
  nq ≤ 64 && fld cause 6 2 == 0 && fld cause 16 48 == 0 && zeroAt bs 56 8
    && fld pos 5 3 == 0 && fld pos 13 3 == 0 && fld pos 19 5 == 0 && fld pos 29 3 == 0 && fld pos 37 27 == 0
    && fld (word64 bs 128) 21 43 == 0 && zeroAt bs 136 8 && zeroAt bs 144 368 && zeroAt bs 0x300 256 && zeroAt bs 0x2400 7168
    && (!bitAt cause 13 || (1 ≤ fld pos 16 3 && fld pos 16 3 ≤ 6 && fld pos 0 5 ≤ fld pos 8 5))
    && (List.range nq).all fun i => entryOk (entryBytes bs i) && (readEntry (entryBytes bs i)).isSome

/-- The nest of a frame, before its body is refilled (R441). -/
def frameNest (bs : List (BitVec 8)) : Nest :=
  let pos := word64 bs 120
  let words (off : Nat) : List (BitVec 32) :=
    (List.range (fld pos 16 3)).map fun i => BitVec.ofNat 32 (ofBytesLE ((bs.drop (off + 4 * i)).take 4))
  { counts := words 64, tuple := words 88, start := BitVec.ofNat 64 (word64 bs 112), after := 0, body := [], pos := fld pos 0 5,
    d := BitVec.ofNat 5 (fld pos 24 5), a := BitVec.ofNat 5 (fld pos 32 5) }

/-- Body instructions of a frame's nest. -/
def frameNestLen (bs : List (BitVec 8)) : Nat := fld (word64 bs 120) 8 5 + 1

/-- The chain state of a frame (R441). -/
def frameChain (bs : List (BitVec 8)) : Option (BitVec 16 × BitVec 4) :=
  let c := word64 bs 128
  if bitAt c 20 then some (BitVec.ofNat 16 (fld c 0 16), BitVec.ofNat 4 (fld c 16 4)) else none

/-- The general registers of a frame; g0 stays zero (R440, R446). -/
def frameRegs (bs : List (BitVec 8)) : Vector (BitVec 64) 32 :=
  Vector.ofFn fun (i : Fin 32) => if i.val = 0 then 0 else BitVec.ofNat 64 (word64 bs (0x200 + 8 * i.val))

/-- VL stays within VLMAX under the control thread's split (R173, R181). -/
def Thread.clipVl (t : Thread) : Thread := { t with vl := BitVec.ofNat 14 (min t.vl.toNat (vlmax t.vtype t.splitC)) }

/-- What a push does to the control thread's copies: the split code of a VRECONF, which also empties the chain buffer unless it `keeps`
what was recorded, and the view of a handle that is freed (R181, R219, R226). -/
def Thread.copies (t : Thread) (e : QEntry) (keeps : Bool) : Thread :=
  match e.instr with
  | .vreconf o => { t with splitC := o.e.setWidth 2, chain := if t.recording || keeps then t.chain else [] }
  | .afree o => if o.d = 0 then { t with view0 := false } else { t with view1 := false }
  | _ => t

/-- The entry begins a recording (R219). -/
def QEntry.records (e : QEntry) : Bool :=
  match e.instr with
  | .vrec _ => true
  | _ => false

/-- Saved entries are pushed again (R446). The chain buffer holds what was recorded behind a VRECONF among them, so that is not emptied
again; VL is held against the split that they leave (log entry 90). -/
def Thread.repush : Thread → List QEntry → Thread
  | t, [] => t.clipVl
  | t, e :: es => (t.copies e (es.any QEntry.records)).repush es

/-- What the control thread keeps of the split and of the handles, as the vector side has them (R171, R181, R226). -/
def Thread.resync (t : Thread) : Thread := { t with splitC := t.splitV, view0 := t.h0.isSome, view1 := t.h1.isSome }

/-- Return from a frame block (R446): registers, nest, chain state, mode and pc are restored, and the saved entries that `entries`
gives stand in the queue under fresh numbers. `nest` has its body refilled. The vector side is idle, so the control thread's copies
are its own but for what the entries' pushes do again (log entry 90). -/
def returnFrom (t : Thread) (bs : List (BitVec 8)) (nest : Option Nest) (entries : List QEntry) : Thread :=
  let cause := word64 bs 0
  let kept := entries.drop (if bitAt cause 12 then 1 else 0)
  let again := kept.mapIdx fun k (e : QEntry) => { e with seq := t.pushSeq + BitVec.ofNat 64 k }
  let u : Thread :=
    { t.resync with drainedAt := t.drainedAt.filter (· == BitVec.ofNat 64 (word64 bs 8)), g := frameRegs bs, nest := nest,
                    replay := frameChain bs, sup := bitAt cause 9, queue := again, held := [],
                    pushSeq := t.pushSeq + BitVec.ofNat 64 kept.length, pc := BitVec.ofNat 64 (word64 bs 8), run := .ready }
  u.repush again

/-- The thread as the handler or the halted state finds it: queue empty, VSTART 0, no nest, no replay (R438, R142). -/
def Thread.stopped (t : Thread) : Thread :=
  { t with queue := [], held := t.queue, vstart := 0, nest := none, replay := none, arrived := false, yieldFor := none,
           pubV := none }

/-- The base of a mailbox channel: the host's, and the supervisor's (R462). -/
def State.mailbox (s : State) (sup : Bool) : Nat :=
  s.hdmbase.toNat + 0xFFFFFF0000 + (if sup then 0x4000 else 0)

/-- Append an event to both channels' rings, the count written last, and signal MSI-X vector 0 (R466). -/
def State.event (s : State) (kind : Nat) (arg : Nat) : State :=
  let rec32 := bytesLE 8 kind ++ bytesLE 8 arg ++ bytesLE 8 s.time.toNat ++ bytesLE 8 0
  let put (m : Memory) (b : Nat) : Memory :=
    (m.writeBytes (b + 0x100 + 32 * (s.evCount.toNat % 32)) rec32).writeN (b + 0x80) 8 (s.evCount.toNat + 1)
  { s with mem := put (put s.mem (s.mailbox false)) (s.mailbox true), evCount := s.evCount + 1, msix := true }

/-- A report through management. -/
def State.report (s : State) (r : Report) : State := { s with reports := s.reports ++ [r] }

/-- A thread that stopped in the halted state is reported through management and the mailbox (R439, R445). -/
def State.haltReport (s : State) (slot : Nat) : State := (s.report (.halted slot)).event 1 slot

/-! ### Token counts (R288 to R290) -/

def Thread.tokens (t : Thread) (k : Nat) : Nat := (t.tok.toList.getD k 0).toNat
def Thread.reserved (t : Thread) (k : Nat) : Nat := (t.tokRes.toList.getD k 0).toNat

def Thread.popTok (t : Thread) (k : Nat) : Thread := { t with tok := t.tok.setIfInBounds k (BitVec.ofNat 8 (t.tokens k - 1)) }
def Thread.reserve (t : Thread) (k : Nat) (n : Int) : Thread :=
  { t with tokRes := t.tokRes.setIfInBounds k (BitVec.ofNat 8 (Int.ofNat (t.reserved k) + n).toNat) }
/-- A token into its reserved place. -/
def Thread.putTok (t : Thread) (k : Nat) : Thread :=
  ({ t with tok := t.tok.setIfInBounds k (BitVec.ofNat 8 (t.tokens k + 1)) } : Thread).reserve k (-1)

/-! ### Stores that are owed or held -/

/-- Perform stores at their homes. -/
def performOwed (m : Memory) (l : List (Nat × List (BitVec 8))) : Memory := l.foldl (fun m p => m.writeBytes p.1 p.2) m

/-- Two runs of bytes share one. -/
def overlap (a m b n : Nat) : Bool := a < b + n && b < a + m

/-- Memory with V-stream stores performed in their order. -/
def performV (m : Memory) (l : List VStore) : Memory := l.foldl (fun m (v : VStore) => m.writeBytes v.key v.bytes) m

/-- The V-stream stores of the entries that `p` takes are performed (R164). -/
def flushV (s : State) (t : Thread) (p : VStore → Bool) : State × Thread :=
  ({ s with mem := performV s.mem (t.vbuf.filter p) }, { t with vbuf := t.vbuf.filter fun v => !p v })

/-- No store before place `j` of a list touches bytes of the one there, so that it may be performed before them (R391). -/
def mayPass {α : Type} (key : α → Nat) (len : α → Nat) (l : List α) (j : Nat) : Bool :=
  match l[j]? with
  | some x => (l.take j).all fun y => !overlap (key y) (len y) (key x) (len x)
  | none => false

/-- Batches at the head of what write streams owe that have no store left push their tokens and are gone (R290). -/
def Thread.settleOwed : Thread → List OwedStores → Thread
  | t, [] => { t with owed := [] }
  | t, o :: os => if o.stores.isEmpty then Thread.settleOwed (o.toks.foldl Thread.putTok t) os else { t with owed := o :: os }

/-- The stores owed, oldest first; and what is owed without the `j`-th. -/
def Thread.owedStores (t : Thread) : List (Nat × List (BitVec 8)) := (t.owed.map OwedStores.stores).flatten
def dropOwed : List OwedStores → Nat → List OwedStores
  | [], _ => []
  | o :: os, j => if j < o.stores.length then { o with stores := o.stores.eraseIdx j } :: os else o :: dropOwed os (j - o.stores.length)

/-- The `j`-th store that a thread holds or owes on a stream, where no earlier one there touches its bytes, and the thread without it (R391). -/
def Thread.takeStore (t : Thread) (side : Side) (j : Nat) : Option ((Nat × List (BitVec 8)) × Thread) :=
  let free (l : List (Nat × List (BitVec 8))) : Option (Nat × List (BitVec 8)) :=
    if mayPass (fun x => x.1) (fun x => x.2.length) l j then l[j]? else none
  match side with
  | .c => (free t.cbuf).map fun x =>
      let rest := t.cbuf.eraseIdx j
      (x, { t with cbuf := rest, cvia := if rest.isEmpty then [] else t.cvia })
  | .v => (free (t.vbuf.map fun (v : VStore) => (v.key, v.bytes))).map fun x => (x, { t with vbuf := t.vbuf.eraseIdx j })
  | .a => (free t.owedStores).map fun x => (x, t.settleOwed (dropOwed t.owed j))

/-- Every store that write streams still owe is performed, and the tokens that waited for them are pushed (R256, R266, R290). -/
def flushOwed (s : State) (t : Thread) : State × Thread :=
  ({ s with mem := t.owed.foldl (fun m (o : OwedStores) => performOwed m o.stores) s.mem },
    t.owed.foldl (fun u (o : OwedStores) => o.toks.foldl Thread.putTok u) { t with owed := [] })

/-- The same, and the C-stream stores that the thread holds. -/
def flushAll (s : State) (t : Thread) : State × Thread :=
  let r := flushOwed s t
  ({ r.1 with mem := performOwed r.1.mem t.cbuf }, { r.2 with cbuf := [], cvia := [] })

/-- Every C-stream store that the thread of a slot holds is performed, in program order (R133). -/
def flushHeld (s : State) (slot : Nat) : State :=
  match s.thread? slot with
  | some t => if t.cbuf.isEmpty then s else { s with mem := performOwed s.mem t.cbuf }.setThread { t with cbuf := [], cvia := [] }
  | none => s

/-- Enter a trap: the frame block, TSTAT.SUP, g5, g6 and the handler's address; in supervisor mode a double trap that halts
the thread and is reported (R438, R439). -/
def enterTrap (s : State) (t : Thread) (tr : Trap) (v : Bool) (pc epc : BitVec 64) (skip : Bool) : State :=
  let cause := causeWord tr v t.sup skip t.nest.isSome t.sup false
  let base := s.frameBase t
  let fl := flushAll s t
  let t := fl.2
  let m := writeFrame fl.1.mem base t ⟨cause, pc, epc, tr.addr, tr.detail⟩
  let s := { s with mem := m }
  if t.sup then
    (s.setThread { t.stopped with run := .halted, pc := pc }).haltReport t.slot
  else
    let p := s.partOf t
    let u := { t.stopped with run := .ready, sup := true, pc := p.tvec + BitVec.ofNat 64 (32 * tr.code) }
    s.setThread ((u.wr 5 (p.fva + BitVec.ofNat 64 (0x4000 * t.slot))).wr 6 (BitVec.ofNat 64 cause))

/-! ### Issuing a control instruction -/

/-- The control pipeline serves the thread: it is neither halted, nor being saved, nor waiting for its tiles (R445, R449, R248). -/
def Thread.active? (t : Thread) : Bool :=
  match t.run with
  | .ready => true
  | .blocked _ => true
  | _ => false

/-- The thread whose control pipeline issues; where none that it serves is placed, nothing happens (log entry 4). -/
def withCur (s : State) (f : Thread → Out) : Out :=
  match s.thread? s.cur with
  | some t => if t.active? then f t else .next s
  | none => .next s

/-- A control instruction that reads the general registers `srcs` and writes `dsts`: it waits for pending registers (R192, R228),
for entries of the queue registers its sources are bound to and for room in those of its results (R262, R264), and then
runs `f` on the thread with those entries popped. A trap inside `f` uses `s`, in which nothing is popped. -/
def issue (i : Instr) (srcs dsts : List Reg) (s : State) (f : Thread → Thread → Out) : Out :=
  withCur s fun t =>
    if t.awaitsTile || (srcs ++ dsts).any t.isPending then wait s t i
    else
      let qs := t.srcQueues srcs
      if qs.any (fun q => (t.qAt q).entries.isEmpty) || dsts.any (t.dstFull qs) then wait s t i
      else f t ({ t with run := .ready }.popQs qs)

/-- The thread past an instruction that is complete. -/
def Thread.pass (u : Thread) (i : Instr) : Thread :=
  ({ u with arrived := false, drainedAt := u.drainedAt.filter (· != u.pc), yieldFor := none, pubV := none } : Thread).advance (instrLen i)

/-- End of a control instruction that goes on to the next one. -/
def done (s : State) (u : Thread) (i : Instr) : Out := .next (s.setThread (u.pass i))

/-- An instruction whose whole effect is a value for `d` computed from its sources. -/
def compute (i : Instr) (srcs : List Reg) (d : Reg) (s : State) (v : Thread → BitVec 64) : Out :=
  issue i srcs [d] s fun t u => done s (u.result d (v t)) i

/-- The wait of R101: until VCP has passed every instruction pushed before it. -/
def afterVcp (i : Instr) (s : State) (t : Thread) (k : Out) : Out :=
  if t.queue.isEmpty then k else wait s t i

/-- Raise sticky flags: bits [5:0] into FFLAGS, bit 6 into SAT (R97, R98). -/
def Thread.raise (t : Thread) (fl : Flg) : Thread :=
  { t with fflags := t.fflags ||| fl.extractLsb' 0 6, sat := t.sat || fl.getLsbD 6 }

end
end Sys2Proof.Machine
end

