-- ==== Sys2Proof/Machine/Operands.lean ====
section
/-! DEFINITION. The operand forms of control instructions: immediates and offsets of every length (spec/03_encoding.md R49, R50,
R71, R72) and the element-type codes of scalar accesses (R55, R131). -/

namespace Sys2Proof.Machine
open Sys2Proof

/-- The payload H of EXT as a number; zero width without EXT (R71). -/
def extJoin (x : Ext) (n w : Nat) : Nat × Nat :=
  match x with
  | none => (n, w)
  | some h => (n + 24, h.toNat * 2 ^ n + w)

/-- An I-format immediate, sign-extended (R50, R71). -/
def immS (x : Ext) (i : BitVec 14) : BitVec 64 := let j := extJoin x 14 i.toNat; sextWord j.1 j.2

/-- An I-format immediate, zero-extended (R50, R71). -/
def immZ (x : Ext) (i : BitVec 14) : BitVec 64 := let j := extJoin x 14 i.toNat; zextWord j.1 j.2

/-- An L-format immediate (R50, R71). -/
def immL (x : Ext) (i : BitVec 19) : BitVec 64 := let j := extJoin x 19 i.toNat; sextWord j.1 j.2

/-- An M-format byte offset (R50, R71). -/
def offM (x : Ext) (i : BitVec 11) : BitVec 64 := let j := extJoin x 11 i.toNat; sextWord j.1 j.2

/-- An S-format byte offset: imm[10:5] in `i`, imm[4:0] in `j` (R49, R50, R71). -/
def offS (x : Ext) (i : BitVec 6) (j : BitVec 5) : BitVec 64 :=
  let k := extJoin x 11 (i.toNat * 32 + j.toNat); sextWord k.1 k.2

/-- A B-format offset: off[14:6] in `i`, off[5:1] in `j` (R49, R50, R71). -/
def offB (x : Ext) (i : BitVec 9) (j : BitVec 5) : BitVec 64 :=
  let k := extJoin x 15 (i.toNat * 64 + j.toNat * 2); sextWord k.1 k.2

/-- A J-format offset: off[19:1] in `i` (R49, R50, R71). -/
def offJ (x : Ext) (i : BitVec 19) : BitVec 64 := let k := extJoin x 20 (i.toNat * 2); sextWord k.1 k.2

/-- The width in bytes of an element-type code (R55). -/
def eBytes (w : BitVec 3) : Nat := 2 ^ (w.toNat % 4)

/-- A loaded value: codes 0 to 3 sign-extend, codes 4 to 7 zero-extend (R131). -/
def loadExtend (w : BitVec 3) (v : Nat) : BitVec 64 :=
  if w.toNat < 4 then sextWord (8 * eBytes w) v else zextWord (8 * eBytes w) v

/-- Aligned to `n` bytes (R132). -/
def aligned (a : BitVec 64) (n : Nat) : Bool := a.toNat % n == 0

end Sys2Proof.Machine
end

