-- ==== Sys2Proof/Machine/Flags.lean ====
section
/-! DEFINITION. Integer results on general registers (spec/05_general_registers.md R120, R121) and the floating-point results and
flags of scalar instructions (R124 to R130; spec/04_number_formats.md R89, R101). -/

namespace Sys2Proof.Machine
open Sys2Proof

def boolWord (b : Bool) : BitVec 64 := if b then 1 else 0

/-- MULH and MULHW (R120). -/
def mulHigh (a b : BitVec 64) : BitVec 64 := BitVec.ofInt 64 (a.toInt * b.toInt / 2 ^ 64)
def mulHighU (a b : BitVec 64) : BitVec 64 := BitVec.ofNat 64 (a.toNat * b.toNat / 2 ^ 64)

/-- Division never traps (R121). -/
def divS (a b : BitVec 64) : BitVec 64 :=
  if b = 0 then BitVec.allOnes 64 else BitVec.ofInt 64 (truncDiv a.toInt b.toInt)
def divU (a b : BitVec 64) : BitVec 64 :=
  if b = 0 then BitVec.allOnes 64 else BitVec.ofNat 64 (a.toNat / b.toNat)
def remS (a b : BitVec 64) : BitVec 64 :=
  if b = 0 then a else BitVec.ofInt 64 (truncMod a.toInt b.toInt)
def remU (a b : BitVec 64) : BitVec 64 :=
  if b = 0 then a else BitVec.ofNat 64 (a.toNat % b.toNat)

/-- Shifts by b[5:0] (R120). -/
def shlW (a b : BitVec 64) : BitVec 64 := a <<< (b.toNat % 64)
def shrW (a b : BitVec 64) : BitVec 64 := a >>> (b.toNat % 64)
def sarW (a b : BitVec 64) : BitVec 64 := a.sshiftRight (b.toNat % 64)

def minS (a b : BitVec 64) : BitVec 64 := if b.slt a then b else a
def maxS (a b : BitVec 64) : BitVec 64 := if a.slt b then b else a
def minU (a b : BitVec 64) : BitVec 64 := if b.ult a then b else a
def maxU (a b : BitVec 64) : BitVec 64 := if a.ult b then b else a

/-! ### Scalar floating point -/

/-- The mode of a 3-bit override under FRM (R89). -/
def overrideMode (r frm : BitVec 3) : Rm := if r = 7 then Rm.ofCode frm.toNat else Rm.ofCode r.toNat

/-- The hash of a scalar rounding (R126). -/
def scalarHash (t : Thread) : Nat := srHash t.seed 0 (srKey 4 0)

/-- The f32 operand in bits [31:0] (R116). -/
def lowF32 (v : BitVec 64) : Nat := v.toNat % 2 ^ 32

end Sys2Proof.Machine
end

