-- ==== Sys2Proof/Machine/Translate.lean ====
section
/-! DEFINITION. Physical addresses, the partition check, ASPACE, the Sv57 walk and the apertures
(spec/15_address_translation.md R356 to R364; spec/11_scratchpads_and_vector_memory.md R268). -/

namespace Sys2Proof.Machine
open Sys2Proof

noncomputable section

/-- The ACC code of a fault (R441, R487). -/
def Acc1.code : Acc1 → Nat
  | .read => 1 | .write => 2 | .fetch => 3 | .atomic => 2

def Acc1.writes : Acc1 → Bool
  | .write => true | .atomic => true | _ => false

/-- For whom an access is translated: a thread, or a move with what it captured (R282, R359). -/
structure Who where
  slot : Nat
  part : Nat
  sup : Bool
  aspace : BitVec 64
  ver : BitVec 16
  deriving DecidableEq, Repr

def Thread.who (s : State) (t : Thread) : Who := ⟨t.slot, t.part, t.sup, t.aspace, (s.partOf t).ver⟩

/-- Offset of a physical address from HDMBASE where it lies in the 16 TiB window (R356). -/
def winOffset (s : State) (pa : Nat) : Option Nat :=
  if s.hdmbase.toNat ≤ pa ∧ pa < s.hdmbase.toNat + 2 ^ 44 then some (pa - s.hdmbase.toNat) else none

/-- The global bank of an address in the die-bank region (R356, R293). -/
def bankAt (s : State) (pa : Nat) : Option Nat :=
  match winOffset s pa with
  | some o => if 2 ^ 40 ≤ o ∧ o < 2 ^ 40 + 2 ^ 34 then some ((o - 2 ^ 40) / 2 ^ 23) else none
  | none => none

/-- The address reaches LPDDR-6, a die bank, an expander within its capacity, or host memory (R356). -/
def reaches (s : State) (pa : Nat) : Bool :=
  match winOffset s pa with
  | none => pa < 2 ^ 52
  | some o =>
    if o < 2 ^ 40 + 2 ^ 34 then true
    else if o < 2 ^ 43 then false
    else
      let p := (o - 2 ^ 43) / 2 ^ 41
      (o - 2 ^ 43) % 2 ^ 41 < (s.memcap.toList.getD p 0).toNat

/-- A bank lies in one of the partition's bank ranges (R145, R357). -/
def Partition.hasBank (p : Partition) (g : Nat) : Bool := p.ranges.any fun r => r.1 ≤ g && g < r.1 + r.2

/-- A translation fault at `va` (R437, R487). -/
def accTrap (code : Nat) (va : BitVec 64) (k : Acc1) : Trap := { code := code, addr := va, acc := k.code }

/-- What a physical address gives a thread of partition `p`: Access Fault where nothing is reached, Bank Outside Partition (R356, R357). -/
def checkPhys (s : State) (p : Partition) (va : BitVec 64) (k : Acc1) (pa : Nat) : Except Trap Nat :=
  if !reaches s pa then .error (accTrap 4 va k)
  else match bankAt s pa with
    | some g => if p.hasBank g then .ok pa else .error (accTrap 5 va k)
    | none => .ok pa

/-- The access rights of a leaf (R363). -/
def rightsOk (pte : Nat) (sup : Bool) (k : Acc1) : Bool :=
  let r := bitAt pte 1
  let w := bitAt pte 2
  let x := bitAt pte 3
  let u := bitAt pte 4
  (match k with
    | .read => r
    | .write => w
    | .fetch => x
    | .atomic => r && w)
  && (if sup then !(k == .fetch && u) else u)

/-- Bits [63:57] equal bit 56. -/
def canonical (v : Nat) : Bool := fld v 56 8 == 0 || fld v 56 8 == 255

/-- A page-table entry that the format calls malformed (R361). -/
def pteBad (pte : Nat) : Bool := fld pte 54 10 ≠ 0 || fld pte 50 4 ≠ 0 || (bitAt pte 2 && !bitAt pte 1)

/-- What a leaf at level `n` gives: the physical address, where the rights admit the access (R361, R363). -/
def leafPlace (pte n : Nat) (va : BitVec 64) (k : Acc1) (sup : Bool) : Except Trap Nat :=
  let ppn := fld pte 10 40
  if ppn % 2 ^ (9 * n) ≠ 0 then .error (accTrap 3 va k)
  else if !rightsOk pte sup k then .error (accTrap 4 va k)
  else .ok (ppn * 4096 + va.toNat % 2 ^ (12 + 9 * n))

def isLeaf (pte : Nat) : Bool := bitAt pte 1 || bitAt pte 3

/-- The address of the entry for `va` in a table of level `n` (R361). -/
def pteAt (va : BitVec 64) (n table : Nat) : Nat := table + 8 * fld va.toNat (12 + 9 * n) 9

/-- A table entry with a bit set that Sv57 reserves in one: U, A or D (R361). -/
def pointerBad (pte : Nat) : Bool := !isLeaf pte && (bitAt pte 4 || bitAt pte 6 || bitAt pte 7)

/-- The fault code of an entry read at level `n` that is neither a leaf nor leads to a table: a migration mark, or Page Fault (R361, R368). -/
def pteFault (pte n : Nat) : Option Nat :=
  if !bitAt pte 0 then some (if fld pte 8 2 = 3 then 6 else 3)
  else if pteBad pte || pointerBad pte || (n == 0 && !isLeaf pte) then some 3
  else none

/-- The walk from a table at level `n` (R361 to R363). It answers the physical address and memory with A and D updated. -/
def walk (s : State) (va : BitVec 64) (k : Acc1) (sup : Bool) : Nat → Nat → Except Trap (Nat × Memory)
  | n, table =>
    let a := pteAt va n table
    if !reaches s a then .error (accTrap 7 va k) else
    let pte := s.mem.readN a 8
    match pteFault pte n with
    | some c => .error (accTrap c va k)
    | none =>
      if isLeaf pte then
        match leafPlace pte n va k sup with
        | .error e => .error e
        | .ok pa =>
          let new := pte ||| 0x40 ||| (if k.writes then 0x80 else 0)
          .ok (pa, if new = pte then s.mem else s.mem.writeN a 8 new)
      else
        match n with
        | 0 => .error (accTrap 3 va k)
        | n' + 1 => walk s va k sup n' (fld pte 10 40 * 4096)

/-! ### Cached entries (R366, R370, R371) -/

def asidOf (aspace : BitVec 64) : BitVec 16 := aspace.extractLsb' 44 16
def rootOf (aspace : BitVec 64) : Nat := fld aspace.toNat 0 40 * 4096

/-- The virtual page number from level `n` on. -/
def vpnAt (va : BitVec 64) (n : Nat) : Nat := fld va.toNat (12 + 9 * n) (45 - 9 * n)

/-- A cached entry serves an address space: its own, or any where it is marked G (R361). -/
def CachedPte.serves (c : CachedPte) (asid : BitVec 16) : Bool := c.asid == asid || c.glob
def CachedPte.covers (c : CachedPte) (va : BitVec 64) : Bool := c.vpn == vpnAt va c.level

/-- The cached entry that the accesses of this step to a page use, where one covers it. The choice of a level, and of an entry at it, is one
for the largest page that a cached entry covers here, so that every address on a page takes the same (R371). -/
def cachedFor (s : State) (asid : BitVec 16) (va : BitVec 64) : Option CachedPte :=
  let cs := s.tlb.filter fun c => c.serves asid && c.covers va
  let x := Config.cachedPte s.ctr (vpnAt va (cs.foldl (fun n c => max n c.level) 0))
  (cs.filter fun c => c.level == x % 5)[x / 5]?

/-- The walk, begun at a cached entry or at the root. A leaf cached with D = 0 serves no write (R362). -/
def walkCached (s : State) (aspace va : BitVec 64) (k : Acc1) (sup : Bool) : Except Trap (Nat × Memory) :=
  let full := walk s va k sup 4 (rootOf aspace)
  match cachedFor s (asidOf aspace) va with
  | none => full
  | some c =>
    match pteFault c.pte c.level with
    | some code => .error (accTrap code va k)
    | none =>
      if isLeaf c.pte then
        if k.writes && !bitAt c.pte 7 then full
        else match leafPlace c.pte c.level va k sup with
          | .error e => .error e
          | .ok pa => .ok (pa, s.mem)
      else match c.level with
        | 0 => full
        | n + 1 => walk s va k sup n (fld c.pte 10 40 * 4096)

/-- The level of the leaf that a walk from a table at level `n` ends at. -/
def walkLevel (s : State) (va : BitVec 64) : Nat → Nat → Nat
  | n, table =>
    let pte := s.mem.readN (pteAt va n table) 8
    if isLeaf pte then n
    else match n with
      | 0 => 0
      | n' + 1 => walkLevel s va n' (fld pte 10 40 * 4096)

/-- The level of the leaf that translates an access, as `walkCached` finds it; 0 under MODE 0 (R361, R371). -/
def leafLevel (s : State) (aspace va : BitVec 64) (k : Acc1) : Nat :=
  let full := walkLevel s va 4 (rootOf aspace)
  if fld aspace.toNat 60 4 = 0 then 0
  else match cachedFor s (asidOf aspace) va with
    | none => full
    | some c =>
      if isLeaf c.pte then (if k.writes && !bitAt c.pte 7 then full else c.level)
      else match c.level with
        | 0 => full
        | n + 1 => walkLevel s va n (fld c.pte 10 40 * 4096)

/-- The entry that a walk reads at level `goal`, every entry on its way being a table, and whether one of them or itself is marked G. -/
def entryAt (s : State) (va : BitVec 64) (goal : Nat) : Nat → Nat → Bool → Option (Nat × Bool)
  | n, table, g =>
    let a := pteAt va n table
    let pte := s.mem.readN a 8
    if !reaches s a then none
    else if n = goal then some (pte, g || (bitAt pte 0 && bitAt pte 5))
    else if (pteFault pte n).isSome || isLeaf pte then none
    else match n with
      | 0 => none
      | n' + 1 => entryAt s va goal n' (fld pte 10 40 * 4096) (g || bitAt pte 5)

/-- The translation through which a store to an address goes: on the largest page that the walk or a cached leaf gives for it; none under
MODE 0 (R370). -/
def storedVia (s : State) (aspace va : BitVec 64) : Option StoredVia :=
  if fld aspace.toNat 60 4 = 0 then none
  else
    let leaf (pte n : Nat) (g : Bool) : Option (Nat × Bool) := if (pteFault pte n).isNone && isLeaf pte then some (n, g) else none
    let cached := (s.tlb.filter fun c => c.serves (asidOf aspace) && c.covers va).filterMap fun c => leaf c.pte c.level c.glob
    let walked := (List.range 5).filterMap fun n => (entryAt s va n 4 (rootOf aspace) false).bind fun x => leaf x.1 n x.2
    let all := cached ++ walked
    some ⟨asidOf aspace, va, all.foldl (fun m x => max m x.1) 0, all.any Prod.snd⟩

/-- The translation of an address in an address space, removed by TLBINV, is the one that was stored through. -/
def StoredVia.hit (v : StoredVia) (va : BitVec 64) (asid : BitVec 16) : Bool :=
  (v.asid == asid || v.glob) && vpnAt v.va v.level == vpnAt va v.level

/-- The same for TLBINV.A. -/
def StoredVia.hitAll (v : StoredVia) (a : BitVec 64) : Bool := a.getLsbD 63 || v.glob || v.asid == a.setWidth 16

/-- An entry of the walk for an address is cached: a table, a leaf that has been accessed, or one that ends the walk in a fault (R362, R366,
R371, R473). -/
def cacheEntry (s : State) (aspace va : BitVec 64) (level : Nat) : State :=
  if fld aspace.toNat 60 4 = 0 || !canonical va.toNat then s else
  match entryAt s va level 4 (rootOf aspace) false with
  | none => s
  | some (pte, g) =>
    if (pteFault pte level).isSome || !isLeaf pte || bitAt pte 6 then
      { s with tlb := { asid := asidOf aspace, level := level, vpn := vpnAt va level, pte := pte, glob := g } :: s.tlb }
    else s

/-- TLBINV: what covers the address, for the address space or marked G, leaves every cache (R369 to R371). -/
def dropPage (s : State) (va : BitVec 64) (asid : BitVec 16) : State :=
  { s with tlb := s.tlb.filter fun c => !(c.serves asid && c.covers va) }

/-- TLBINV.A: everything, or what serves an address space and every table (R369). -/
def dropSpace (s : State) (a : BitVec 64) : State :=
  { s with tlb := s.tlb.filter fun c => !(a.getLsbD 63 || (bitAt c.pte 0 && !isLeaf c.pte) || c.serves (a.setWidth 16)) }

/-- Translation by the page tables or, under MODE 0, by identity, before the checks on the physical address (R359, R361). -/
def pageWalk (s : State) (w : Who) (va : BitVec 64) (k : Acc1) : Except Trap (Nat × Memory) :=
  if fld w.aspace.toNat 60 4 = 0 then
    if !w.sup then .error (accTrap 3 va k)
    else if 2 ^ 52 ≤ va.toNat then .error (accTrap 4 va k)
    else .ok (va.toNat, s.mem)
  else if !canonical va.toNat then .error (accTrap 3 va k)
  else walkCached s w.aspace va k w.sup

/-- Translation of everything outside the apertures, the tiled windows and the version ranges (R358). -/
def paged (s : State) (w : Who) (va : BitVec 64) (k : Acc1) : Except Trap Nat × State :=
  match pageWalk s w va k with
  | .error e => (.error e, s)
  | .ok (pa, m) => (checkPhys s (s.parts.toList.getD w.part {}) va k pa, { s with mem := m })

/-- Keys of the scratchpads in the store of memory, above the 52-bit physical addresses (R268, log entry 1). -/
def clusterKey (c off : Nat) : Nat := 2 ^ 52 + c * 2 ^ 22 + off
def unitKey (facet off : Nat) : Nat := 2 ^ 53 + facet * 2 ^ 18 + off

/-- The apertures: none outside them; Access Fault beyond the unit window (R268). -/
def aperture (p : Partition) (slot : Nat) (va : BitVec 64) (k : Acc1) : Option (Except Trap Nat) :=
  let a := va.toNat
  let u := p.uva.toNat
  let c := p.cva.toNat
  let facet := slot / Config.slotsPerFacet
  if u ≤ a ∧ a < u + 65536 then
    if a - u < 2 ^ p.uwlog.toNat then
      some (.ok (unitKey facet (slot % Config.slotsPerFacet * 65536 + (a - u))))
    else some (.error (accTrap 4 va k))
  else if c ≤ a ∧ a < c + 2 ^ 22 then
    some (.ok (clusterKey (facet / Config.facetsPerCluster) (a - c)))
  else none

/-- Legal values of ASPACE (R359). -/
def aspaceOk (v : BitVec 64) : Bool :=
  let m := fld v.toNat 60 4
  (m = 0 || m = 10) && fld v.toNat 40 4 = 0

end
end Sys2Proof.Machine
end

