-- ==== Sys2Proof/Machine/Tiles.lean ====
section
/-! DEFINITION. The tile map and pending-operation logs (spec/13_tile_map_and_pending_logs.md R325 to R335): entries, the
log and its compaction, fetch, eviction, and the outcome of an access to a tiled window. -/

namespace Sys2Proof.Machine
open Sys2Proof

noncomputable section

/-- Copy `n` bytes within memory. -/
def Memory.copy (m : Memory) (src dst n : Nat) : Memory :=
  (m.filter fun p => src ≤ p.1 && p.1 < src + n).foldl (fun acc p => acc.write (dst + (p.1 - src)) p.2) (m.zero dst n)

def tileBytes : Nat := 65536

/-- A tile-map entry (R327). -/
structure TileEntry where
  back : Nat
  slot : Nat
  log : Nat
  fill : Nat
  state : Nat
  rest : Nat
  deriving DecidableEq, Repr

def TiledWin.entryAddr (w : TiledWin) (k : Nat) : Nat := w.map.toNat + 32 * k

def TiledWin.entry (w : TiledWin) (m : Memory) (k : Nat) : TileEntry :=
  let a := w.entryAddr k
  ⟨m.readN a 8, m.readN (a + 8) 8, m.readN (a + 16) 8, m.readN (a + 24) 2, m.readN (a + 26) 1, m.readN (a + 27) 5⟩

def TiledWin.putEntry (w : TiledWin) (m : Memory) (k : Nat) (e : TileEntry) : Memory :=
  let a := w.entryAddr k
  (((((m.writeN a 8 e.back).writeN (a + 8) 8 e.slot).writeN (a + 16) 8 e.log).writeN (a + 24) 2 e.fill).writeN (a + 26) 1 e.state)

/-- A range of bytes lies in the partition's banks. -/
def inBanks (s : State) (p : Partition) (a : Nat) : Bool :=
  match bankAt s a with
  | some g => p.hasBank g
  | none => false

/-- Tiles of a window whose map entries have a listed byte; the entry of any other reads as zero. -/
def TiledWin.listed (w : TiledWin) (m : Memory) : List Nat :=
  let base := w.map.toNat
  ((m.filter fun c => base ≤ c.1 && c.1 < base + 32 * w.ntile.toNat).map fun c => (c.1 - base) / 32).dedup

/-- BACK and LOG that tile `k` had when the window was registered. -/
def TiledWin.home (w : TiledWin) (k : Nat) : Nat × Nat := ((w.homes.find? fun h => h.1 == k).map Prod.snd).getD (0, 0)

/-- The limits of R327 on an entry with STATE 1 or 2. An entry that software has led elsewhere since the registration breaks them: the
device copies no tile to or from memory that the window was not given (R11, R326; log entry 91). -/
def TileEntry.ok (e : TileEntry) (s : State) (p : Partition) (w : TiledWin) (k : Nat) : Bool :=
  e.back % tileBytes == 0 && reaches s e.back && (winOffset s e.back).isSome && (bankAt s e.back).isNone
    && e.log % 4096 == 0 && inBanks s p e.log && e.fill ≤ 512 && e.rest == 0 && w.home k == (e.back, e.log)
    && (if e.state = 1 then e.slot == 0
      else e.slot % tileBytes == 0 && e.slot != 0 && w.slots.contains e.slot && inBanks s p e.slot)

/-- The window that holds a virtual address, with the tile and the offset in it (R325). -/
def Partition.tileOf (p : Partition) (va : BitVec 64) : Option (Nat × TiledWin × Nat × Nat) :=
  (p.windows.find? fun w =>
      w.2.vbase.toNat ≤ va.toNat && va.toNat < w.2.vbase.toNat + w.2.ntile.toNat * tileBytes).map
    fun w => (w.1, w.2, (va.toNat - w.2.vbase.toNat) / tileBytes, va.toNat % tileBytes)

/-! ### The log -/

/-- A log entry (R331). -/
structure LogE where
  val : Nat
  off : Nat
  op : Nat
  w : Nat
  signed : Bool
  deriving DecidableEq, Repr

def LogE.toNat (e : LogE) : Nat :=
  e.val % 2 ^ 32 * 2 ^ 32 + e.off % 2 ^ 16 * 2 ^ 16 + e.op % 8 * 2 ^ 13 + e.w % 4 * 2 ^ 11 + encBool e.signed * 2 ^ 10

def LogE.ofNat (v : Nat) : LogE := ⟨fld v 32 32, fld v 16 16, fld v 13 3, fld v 11 2, bitAt v 10⟩

/-- The bytes an entry touches, counted from its offset. -/
def LogE.len (e : LogE) : Nat := if e.w = 3 then 96 else 2 ^ e.w

def readLog (m : Memory) (log fill : Nat) : List LogE :=
  (List.range fill).map fun i => LogE.ofNat (m.readN (log + 8 * i) 8)

def writeLog (m : Memory) (log : Nat) (es : List LogE) : Memory :=
  m.writeBytes log ((es.map fun e => bytesLE 8 e.toNat).flatten)

/-- A logged update of a `8 × bytes`-bit value (R331). -/
def logUpdate (op bytes : Nat) (signed : Bool) (old val : Nat) : Nat :=
  let n := 8 * bytes
  let o := old % 2 ^ n
  let v := val % 2 ^ n
  if op = 2 then (o + v) % 2 ^ n
  else if op = 3 then (if readInt signed n o < readInt signed n v then v else o)
  else if op = 4 then (if readInt signed n v < readInt signed n o then v else o)
  else if op = 5 then o ||| v
  else if op = 6 then o &&& v
  else v

/-- Apply one entry to a tile whose bytes stand at `base`; one that would leave the tile, which the device never logs, does nothing
(R11, R331). -/
def applyEntry (m : Memory) (base : Nat) (e : LogE) : Memory :=
  if tileBytes < e.off + e.len then m
  else if e.op = 1 then
    let x := Acc.ofImage (m.readBytes (base + e.off) 96)
    m.writeBytes (base + e.off) ((x.addVal (decodeF .f32 e.val) false).image)
  else
    m.writeN (base + e.off) e.len (logUpdate e.op e.len e.signed (m.readN (base + e.off) e.len) e.val)

def applyLog (m : Memory) (base : Nat) (es : List LogE) : Memory := es.foldl (fun m e => applyEntry m base e) m

/-- The `n` bytes at `off` of the merged image of an out tile (R331). -/
def mergedRead (m : Memory) (e : TileEntry) (off n : Nat) : Nat :=
  (applyLog m e.back (readLog m e.log e.fill)).readN (e.back + off) n

/-! ### Compaction (R332) -/

def LogE.within (p e : LogE) : Bool := e.off ≤ p.off && p.off + p.len ≤ e.off + e.len
def LogE.touches (p e : LogE) : Bool := p.off < e.off + e.len && e.off < p.off + p.len

/-- Two values of one operation as one, where the merge rule allows it. -/
def mergeVal (p e : LogE) : Option Nat :=
  if e.op = 1 then
    let a := decodeF .f32 p.val
    let b := decodeF .f32 e.val
    let r := fAdd .f32 p.val e.val .rne 0
    if a.isFinite && b.isFinite && r.fl == 0 && (decodeF .f32 r.bits).isFinite then some r.bits else none
  else some (logUpdate e.op e.len e.signed p.val e.val)

/-- Merge `e` into the earliest earlier entry that rule 2 admits. -/
def mergeInto (e : LogE) : List LogE → Option (List LogE)
  | [] => none
  | p :: ps =>
    let same := p.off == e.off && p.w == e.w && p.op == e.op && p.signed == e.signed
    let clear := ps.all fun q => q.op == e.op || !q.touches e
    match (if same && clear then mergeVal p e else none) with
    | some v => some ({ p with val := v } :: ps)
    | none => (mergeInto e ps).map (p :: ·)

/-- Rule 3: an entry that changes nothing. -/
def LogE.idle (e : LogE) : Bool :=
  if e.op = 1 then e.val % 2 ^ 31 == 0
  else if e.op = 2 then e.val % 2 ^ (8 * e.len) == 0
  else if e.op = 5 then e.val % 2 ^ (8 * e.len) == 0
  else if e.op = 6 then e.val % 2 ^ (8 * e.len) == 2 ^ (8 * e.len) - 1
  else false

def compactScan : List LogE → List LogE → List LogE
  | acc, [] => acc
  | acc, e :: es =>
    if e.op = 7 then compactScan (acc.filter (fun p => !p.within e) ++ [e]) es
    else match mergeInto e acc with
      | some acc' => compactScan acc' es
      | none => if e.idle then compactScan acc es else compactScan (acc ++ [e]) es

def compactLog : Nat → List LogE → List LogE
  | 0, es => es
  | n + 1, es => let es' := compactScan [] es; if es' = es then es else compactLog n es'

/-- The entry of tile `k` as the device uses it: at the backing and the log that the window was given, with at most 512 log entries
(R11, R326). -/
def TiledWin.given (w : TiledWin) (m : Memory) (k : Nat) : TileEntry :=
  let e := w.entry m k
  { e with back := (w.home k).1, log := (w.home k).2, fill := min e.fill 512 }

/-- Compact the log of tile `k` (R332, R333). -/
def compactTile (s : State) (pn win : Nat) (w : TiledWin) (k : Nat) : State :=
  let e := w.given s.mem k
  let es := compactLog 1024 (readLog s.mem e.log e.fill)
  let p := s.parts.toList.getD pn {}
  { s with mem := w.putEntry (writeLog s.mem e.log es) k { e with fill := es.length } }.setPart pn
    { p with compacting := p.compacting.filter fun c => c ≠ (win, k) }

/-! ### Fetch and eviction (R328, R334, R335) -/

def Partition.transitOf (p : Partition) (win k : Nat) : Option Transit :=
  p.transit.find? fun t => t.win == win && t.tile == k

/-- The slot at the end of the free list; none where the list is empty, or holds what the window was not given (R11, R326). -/
def TiledWin.lastFree (w : TiledWin) (m : Memory) : Option Nat :=
  let n := m.readN w.free.toNat 8
  if n = 0 ∨ w.cap.toNat < n then none
  else
    let slot := m.readN (w.free.toNat + 8 + 8 * (n - 1)) 8
    if w.slots.contains slot then some slot else none

/-- Pop a free slot and put the tile into arriving; none where there is no slot (R326, R334). -/
def startFetch (s : State) (pn win : Nat) (w : TiledWin) (k : Nat) : Option State :=
  (w.lastFree s.mem).map fun slot =>
    let p := s.parts.toList.getD pn {}
    { s with mem := s.mem.writeN w.free.toNat 8 (s.mem.readN w.free.toNat 8 - 1) }.setPart pn
      { p with transit := ⟨win, k, true, BitVec.ofNat 64 slot⟩ :: p.transit }

/-- A slot goes back to the free list, where it has room (R326). -/
def TiledWin.putFree (w : TiledWin) (m : Memory) (slot : Nat) : Memory :=
  let n := m.readN w.free.toNat 8
  if n < w.cap.toNat then (m.writeN (w.free.toNat + 8 + 8 * n) 8 slot).writeN w.free.toNat 8 (n + 1) else m

/-! ### Combined bytes of a tile (R405) -/

/-- The combined bytes of a tile go with it: their words from `src` on are those from `dst` on (log entry 92). -/
def CombEntry.move (src dst : Nat) (c : CombEntry) : CombEntry :=
  if src ≤ 8 * c.word && 8 * c.word < src + tileBytes then { c with word := (dst + (8 * c.word - src)) / 8 } else c

def Thread.moveComb (src dst : Nat) (t : Thread) : Thread := { t with comb := t.comb.map (CombEntry.move src dst) }

/-- The same in the image of a saved thread (R447). -/
def SavedThread.moveComb (src dst : Nat) (m : Memory) (v : SavedThread) : Memory :=
  (List.range v.thread.comb.length).foldl (fun m i =>
    let a := v.image.toNat + 0x60000 + 16 * i + 8
    let w := m.readN a 8
    let c := CombEntry.move src dst { word := w % 2 ^ 56, data := 0, mask := 0 }
    m.writeN a 8 (w / 2 ^ 56 * 2 ^ 56 + c.word % 2 ^ 56)) m

/-- Every thread's combined bytes of a tile follow it from `src` to `dst`. -/
def moveCombs (s : State) (src dst : Nat) : State :=
  { s with mem := s.saved.foldl (SavedThread.moveComb src dst) s.mem, threads := s.threads.map (Thread.moveComb src dst),
           saved := s.saved.map fun (v : SavedThread) => { v with thread := v.thread.moveComb src dst } }

/-- The end of arriving: the backing is copied, the log applied, STATE is in and FILL 0 (R328). -/
def finishFetch (s : State) (pn : Nat) (w : TiledWin) (t : Transit) : State :=
  let p := s.parts.toList.getD pn {}
  let e := w.given s.mem t.tile
  let slot := t.slot.toNat
  let m := applyLog (s.mem.copy e.back slot tileBytes) slot (readLog s.mem e.log e.fill)
  (moveCombs { s with mem := w.putEntry m t.tile { e with slot := slot, fill := 0, state := 2 } } e.back slot).setPart pn
    { p with transit := p.transit.filter fun u => u ≠ t, compacting := p.compacting.filter fun c => c ≠ (t.win, t.tile) }

/-- The end of leaving: the slot is copied to the backing and pushed onto the free list (R328, R335). -/
def finishLeave (s : State) (pn : Nat) (w : TiledWin) (t : Transit) : State :=
  let p := s.parts.toList.getD pn {}
  let e := w.given s.mem t.tile
  let slot := t.slot.toNat
  let m := w.putFree (s.mem.copy slot e.back tileBytes) slot
  (moveCombs { s with mem := w.putEntry m t.tile { e with slot := 0, fill := 0, state := 1 } } slot e.back).setPart pn
    { p with transit := p.transit.filter fun u => u ≠ t }

/-- The log of an out tile applied to its backing, which leaves it empty (R331; log entry 92). -/
def foldLog (s : State) (pn win : Nat) (w : TiledWin) (k : Nat) : State :=
  let e := w.given s.mem k
  let p := s.parts.toList.getD pn {}
  { s with mem := w.putEntry (applyLog s.mem e.back (readLog s.mem e.log e.fill)) k { e with fill := 0 } }.setPart pn
    { p with compacting := p.compacting.filter fun c => c ≠ (win, k) }

/-- An out tile of a partition's windows on whose backing combined bytes lie: its window's number and descriptor, and the tile. -/
def Partition.combOut (p : Partition) (m : Memory) (c : List CombEntry) : Option (Nat × TiledWin × Nat) :=
  p.windows.findSome? fun x => x.2.homes.findSome? fun h =>
    let e := x.2.given m h.1
    if e.state = 1 && (c.any fun b => e.back ≤ 8 * b.word && 8 * b.word < e.back + tileBytes) then some (x.1, x.2, h.1) else none

/-- What a tile access meets (R327 to R329). -/
inductive TileHit where
  | slot (key : Nat)
  | merged (e : TileEntry) (off : Nat)
  | logged (win : Nat) (w : TiledWin) (k off : Nat)
  | wait
  | bad (t : Trap)
  deriving DecidableEq, Repr

/-- A tile trap, with the tile index as DETAIL (R487). -/
def tileTrap (code : Nat) (va : BitVec 64) (k : Acc1) (tile : Nat) : Trap :=
  { code := code, addr := va, acc := k.code, detail := BitVec.ofNat 64 tile }

/-- An access of `k` to tile `tile` of window `win`. `log` marks an operation that R330 and R338 let be logged. -/
def tileAccess (s : State) (pn win : Nat) (w : TiledWin) (tile off : Nat) (va : BitVec 64) (k : Acc1) (log : Bool) :
    TileHit × State :=
  let p := s.parts.toList.getD pn {}
  let e := w.entry s.mem tile
  if (p.transitOf win tile).isSome then (.wait, s)
  else if 2 < e.state then (.bad (tileTrap 9 va k tile), s)
  else if e.state = 0 then (.bad (accTrap 3 va k), s)
  else if !e.ok s p w tile then (.bad (tileTrap 9 va k tile), s)
  else if e.state = 2 then
    match checkPhys s p va k (e.slot + off) with
    | .ok pa => (.slot pa, s)
    | .error t => (.bad t, s)
  else if !k.writes then (.merged e off, s)
  else
    let s := if p.compacting.contains (win, tile) || (log && e.fill = 512) then compactTile s pn win w tile else s
    if log && (w.entry s.mem tile).fill < 512 then (.logged win w tile off, s)
    else match startFetch s pn win w tile with
      | some s => (.wait, s)
      | none => (.bad (tileTrap 10 va k tile), s)

/-- Append one entry, to the log that the window was given and within its 4 KiB; FILL reaching 384 calls for compaction (R11, R330, R333). -/
def appendLog (s : State) (pn win : Nat) (w : TiledWin) (tile : Nat) (e : LogE) : State :=
  let t := w.given s.mem tile
  let m := s.mem.writeN (t.log + 8 * min t.fill 511) 8 e.toNat
  let s := { s with mem := w.putEntry m tile { t with fill := t.fill + 1 } }
  if t.fill + 1 = 384 then
    let p := s.parts.toList.getD pn {}
    s.setPart pn { p with compacting := (win, tile) :: p.compacting }
  else s

end
end Sys2Proof.Machine
end

