-- ==== Sys2Proof/Machine/VersionTab.lean ====
section
/-! DEFINITION. The version table: regions, resolution, pins and the address ranges of a binding
(spec/14_policy_versions.md R339 to R345). -/

namespace Sys2Proof.Machine
open Sys2Proof

noncomputable section

/-- Version `x` is after version `y` in serial order (R341). -/
def verAfter (x y : BitVec 16) : Bool := let d := (x - y).toNat; 1 ≤ d && d ≤ 32767

/-- A region entry (R340). -/
structure Region where
  vbase : Nat
  sva : Nat
  size : Nat
  slots : List Nat
  svers : List Nat
  pins : List Nat
  sst : Nat
  nslot : Nat
  lastpub : Nat
  deriving DecidableEq, Repr

def regionAddr (base r : Nat) : Nat := base + 128 + 128 * r

def readRegion (m : Memory) (base r : Nat) : Region :=
  let a := regionAddr base r
  let l (o n k : Nat) : List Nat := (List.range n).map fun j => m.readN (a + o + k * j) k
  { vbase := m.readN a 8, sva := m.readN (a + 8) 8, size := m.readN (a + 16) 8, slots := l 24 4 8, svers := l 56 4 2,
    pins := l 64 4 2, sst := m.readN (a + 72) 1, nslot := m.readN (a + 73) 1, lastpub := m.readN (a + 74) 2 }

/-- The state of slot `j`: 0 unused, 1 published, 2 staging (R340). -/
def Region.st (r : Region) (j : Nat) : Nat := fld r.sst (2 * j) 2
def Region.ver (r : Region) (j : Nat) : BitVec 16 := BitVec.ofNat 16 (r.svers.getD j 0)
def Region.pin (r : Region) (j : Nat) : Nat := r.pins.getD j 0

/-- The published slot that version `b` resolves to (R342). -/
def Region.resolve (r : Region) (b : BitVec 16) : Option Nat :=
  bestIdx (fun j i => (b - r.ver j).toNat < (b - r.ver i).toNat)
    ((List.range 4).filter fun j => r.st j == 1 && !verAfter (r.ver j) b)

def Region.staging (r : Region) : Option Nat := (List.range 4).find? fun j => r.st j == 2

/-- The lowest slot free for the region (R350). -/
def Region.free (r : Region) : Option Nat := (List.range 4).find? fun j => r.st j == 1 && r.pin j == 0

def validRegions (m : Memory) (base : Nat) : List Nat :=
  (List.range 64).filter fun r => bitAt (m.readN (base + 8) 8) r

def latest (m : Memory) (base : Nat) : BitVec 16 := BitVec.ofNat 16 (m.readN base 2)

def setPin (m : Memory) (base r j v : Nat) : Memory := m.writeN (regionAddr base r + 64 + 2 * j) 2 v

/-- Add to, or take from, the pin of the slot that `b` resolves to in every valid region (R342, R345). -/
def pinAll (m : Memory) (base : Nat) (b : BitVec 16) (up : Bool) : Memory :=
  (validRegions m base).foldl (fun m r =>
    let g := readRegion m base r
    match g.resolve b with
    | some j => setPin m base r j (if up then g.pin j + 1 else g.pin j - 1)
    | none => m) m

/-- The address in the copy at slot `j` of a region, where the region was registered with that slot (R11, R340). -/
def GivenRegion.copyAt (g : GivenRegion) (j : Option Nat) (off : Nat) : Option Nat :=
  (j.bind fun j => g.slots[j]?).bind fun a => if a = 0 then none else some (a + off)

/-- The regions of the table at `base`, as they stand at its registration. -/
def givenRegions (m : Memory) (base : Nat) : List GivenRegion :=
  (validRegions m base).map fun r =>
    let g := readRegion m base r
    ⟨r, BitVec.ofNat 64 g.vbase, BitVec.ofNat 64 g.sva, BitVec.ofNat 64 g.size, g.slots⟩

/-- The range of `size` bytes from `base` on holds an address. -/
def inRange (base size va : BitVec 64) : Bool := base.toNat ≤ va.toNat && va.toNat < base.toNat + size.toNat

/-- Where an address of a version range leads: none outside them. Ranges and copies are those of the registration, whatever software wrote over the
table; which slot is meant stands in the table (R11, R342, R344; log entry 91). -/
def versionHit (s : State) (w : Who) (va : BitVec 64) (k : Acc1) : Option (Except Trap Nat) :=
  match s.vtab with
  | none => none
  | some b =>
    let answer (a : Option Nat) : Except Trap Nat := match a with
      | some a => .ok a
      | none => .error (accTrap 4 va k)
    match s.vgiven.find? fun g => inRange g.vbase g.size va with
    | some g =>
      some (if k.writes then .error (accTrap 4 va k)
        else answer (g.copyAt ((readRegion s.mem b.toNat g.num).resolve w.ver) (va - g.vbase).toNat))
    | none =>
      (s.vgiven.find? fun g => inRange g.sva g.size va).map fun g =>
        answer (g.copyAt (readRegion s.mem b.toNat g.num).staging (va - g.sva).toNat)

end
end Sys2Proof.Machine
end

