-- ==== Sys2Proof/Machine/Access.lean ====
section
/-! DEFINITION. One access of a thread: the order of the address ranges (spec/15_address_translation.md R358), the load and the
store where it leads, the combining buffer (spec/18_determinism.md R405) and the implicit drain (R406). -/

namespace Sys2Proof.Machine
open Sys2Proof

noncomputable section

/-- Where an access is performed. -/
inductive Loc where
  /-- bytes of the store of memory from a key on -/
  | mem (key : Nat)
  /-- the merged image of an out tile (R331) -/
  | merged (e : TileEntry) (off : Nat)
  /-- the log of an out tile (R330) -/
  | logged (win : Nat) (w : TiledWin) (tile off : Nat)
  deriving DecidableEq, Repr

/-- The result of translating and checking an access. -/
inductive Found where
  | at (l : Loc)
  /-- a tile of the access is arriving or leaving (R328) -/
  | wait
  | bad (t : Trap)
  deriving DecidableEq, Repr

/-- Translate an access (R358): apertures, tiled windows, version ranges, page tables, in that order. `log` admits the log of an
out tile (R330). -/
def locate (s : State) (w : Who) (va : BitVec 64) (k : Acc1) (log : Bool) : Found × State :=
  let p := s.parts.toList.getD w.part {}
  match aperture p w.slot va k with
  | some (.ok key) => (.at (.mem key), s)
  | some (.error e) => (.bad e, s)
  | none =>
    match p.tileOf va with
    | some (win, tw, tile, off) =>
      match tileAccess s w.part win tw tile off va k log with
      | (.slot key, s) => (.at (.mem key), s)
      | (.merged e off, s) => (.at (.merged e off), s)
      | (.logged win tw tile off, s) => (.at (.logged win tw tile off), s)
      | (.wait, s) => (.wait, s)
      | (.bad e, s) => (.bad e, s)
    | none =>
      match versionHit s w va k with
      | some (.ok pa) => (.at (.mem pa), s)
      | some (.error e) => (.bad e, s)
      | none =>
        match paged s w va k with
        | (.ok pa, s) => (.at (.mem pa), s)
        | (.error e, s) => (.bad e, s)

/-- The `n` bytes an access at a place reads from the homes. -/
def loadHome (s : State) (l : Loc) (n : Nat) : Nat :=
  match l with
  | .mem key => s.mem.readN key n
  | .merged e off => mergedRead s.mem e off n
  | .logged _ w tile off => mergedRead s.mem (w.entry s.mem tile) off n

/-- A store of `n` bytes at a place, performed at its home. -/
def storeHome (s : State) (part : Nat) (l : Loc) (n v : Nat) : State :=
  match l with
  | .mem key => { s with mem := s.mem.writeN key n v }
  | .merged _ _ => s
  | .logged win w tile off => appendLog s part win w tile ⟨v % 2 ^ (8 * n), off, 7, Nat.log2 n, false⟩

/-! ### The combining buffer (R405) -/

/-- A shared level: anything but a unit window. -/
def isShared (key : Nat) : Bool := key < 2 ^ 53

def combFind (c : List CombEntry) (word : Nat) : Option CombEntry := c.find? fun e => e.word == word

/-- The bytes of one word under the buffer's bytes. -/
def combByte (s : State) (c : List CombEntry) (a : Nat) : BitVec 8 :=
  match combFind c (a / 8) with
  | some e => if e.mask.getLsbD (a % 8) then e.data.extractLsb' (8 * (a % 8)) 8 else s.mem.read a
  | none => s.mem.read a

/-- What the thread itself reads at a key: its combined bytes first (R405). -/
def readSelf (s : State) (t : Thread) (key n : Nat) : Nat :=
  if t.det then ofBytesLE ((List.range n).map fun i => combByte s t.comb (key + i)) else s.mem.readN key n

/-- The merged image of an out tile, with the thread's combined bytes of it (R331, R405). -/
def readMerged (s : State) (t : Thread) (e : TileEntry) (off n : Nat) : Nat :=
  readSelf { s with mem := applyLog s.mem e.back (readLog s.mem e.log e.fill) } t (e.back + off) n

def loadT (s : State) (t : Thread) (l : Loc) (n : Nat) : Nat :=
  match l with
  | .mem key => readSelf s t key n
  | .merged e off => readMerged s t e off n
  | l => loadHome s l n

/-- One byte merged into the buffer; none where it needs an 8193rd entry (R405). -/
def combPut : List CombEntry → Nat → Nat → BitVec 8 → Option (List CombEntry)
  | [], 0, _, _ => none
  | [], _ + 1, a, v =>
    some [{ word := a / 8, data := v.setWidth 64 <<< (8 * (a % 8)), mask := 1 <<< (a % 8) }]
  | e :: es, room, a, v =>
    if e.word = a / 8 then
      let keep : BitVec 64 := ~~~ ((255 : BitVec 64) <<< (8 * (a % 8)))
      some ({ e with data := (e.data &&& keep) ||| (v.setWidth 64 <<< (8 * (a % 8))), mask := e.mask ||| (1 <<< (a % 8)) } :: es)
    else (combPut es (room - 1) a v).map (e :: ·)

def combPutAll : List CombEntry → Nat → List (BitVec 8) → Option (List CombEntry)
  | c, _, [] => some c
  | c, a, v :: vs =>
    match combPut c 8192 a v with
    | some c => combPutAll c (a + 1) vs
    | none => none

/-- Combined bytes are noted with the translation they were stored through (R370). -/
def Thread.combine (t : Thread) (s : State) (va : BitVec 64) (c : List CombEntry) : Thread :=
  let v := (storedVia s t.aspace va).toList.filter fun x => !t.combVia.contains x
  { t with comb := c, combVia := v ++ t.combVia }

/-- A store of a thread at a place: through the combining buffer to a shared level under determinism, else at home. Combine Full
names the address `va` (R405, R487). -/
def storeT (s : State) (t : Thread) (va : BitVec 64) (l : Loc) (n v : Nat) : Except Trap (State × Thread) :=
  match l with
  | .mem key =>
    if t.det && isShared key then
      match combPutAll t.comb key (bytesLE n v) with
      | some c => .ok (s, t.combine s va c)
      | none => .error { code := 11, addr := va, acc := 2 }
    else .ok (storeHome s t.part l n v, t)
  | l => .ok (storeHome s t.part l n v, t)

/-- The bytes of the buffer written to their homes (R406). -/
def drainComb (m : Memory) (c : List CombEntry) : Memory :=
  c.foldl (fun m e => (List.range 8).foldl (fun m i =>
    if e.mask.getLsbD i then m.write (8 * e.word + i) (e.data.extractLsb' (8 * i) 8) else m) m) m

/-- The implicit drain of the thread's instruction is complete, and nothing has been combined since, by a handler in between (R406, R443). -/
def Thread.drained (t : Thread) : Bool := t.drainedAt.contains t.pc && t.comb.isEmpty

/-- A VFENCE.D of the thread is queued: its drain comes first (R406, R411). -/
def Thread.fenceQueued (t : Thread) : Bool :=
  t.queue.any fun e => match e.instr with
    | .vfenceD _ => true
    | _ => false

/-- The implicit drain before an instruction's other effects: none outside determinism or once complete; else the thread takes the
next drain number and waits. A drain stays complete for its instruction where a trap or a pre-emption comes between (R406, R443). -/
def withDrain (s : State) (t : Thread) (i : Instr) (k : Out) : Out :=
  if !t.det || t.drained then k
  else if t.draining || t.fenceQueued then wait s t i
  else .next (s.setThread { t with run := .blocked i, draining := true, drainNo := t.drainNo + 1 })

/-- The launch of a thread (R148). -/
def State.launchOf (s : State) (t : Thread) : Option Launch := (s.partOf t).launches.find? fun l => l.id == t.launch

/-- Ranks that have completed drain `k` or exited, below rank `r` (R406). -/
def drainedBelow (l : Launch) (k r : Nat) : Nat :=
  let ok (q : Nat) : Bool := l.gone.contains q || (l.drains.any fun d => d.1 == q && k ≤ d.2)
  (((l.drains.map Prod.fst ++ l.gone).dedup).filter fun q => q < r && ok q).length

/-- Drain `k` of rank `r` may start (R406). -/
def drainReady (l : Launch) (k r : Nat) : Bool :=
  drainedBelow l k r == r && (k ≤ 1 || drainedBelow l (k - 1) l.count == l.count)

/-- Record a completed drain of a rank. -/
def Launch.noteDrain (l : Launch) (r k : Nat) : Launch :=
  { l with drains := (r, k) :: l.drains.filter fun d => d.1 != r }

def Partition.setLaunch (p : Partition) (l : Launch) : Partition :=
  { p with launches := p.launches.map fun m => if m.id = l.id then l else m }

end
end Sys2Proof.Machine
end

