-- ==== Sys2Proof/Machine/VReg.lean ====
section
/-! DEFINITION. Vector register storage as the vector side reads and writes it: splits, elements, high-water lengths, masks, source
modifiers, tail and masked-off elements (spec/07_vector_register_storage.md R170 to R177; spec/08_lanes_and_vector_operations.md
R191, R195, R202). -/

namespace Sys2Proof.Machine
open Sys2Proof

noncomputable section

/-- A vector operand: its first register, its group and its element width in bits. -/
structure Opnd where
  reg : BitVec 6
  grp : Nat
  ew : Nat
  deriving DecidableEq, Repr

/-- Elements a group holds (R175). -/
def Opnd.cap (o : Opnd) (split : BitVec 2) : Nat := rlenOf split * o.grp * 8 / o.ew

/-- Storage byte of element `e` of a group (R170). -/
def Opnd.byteAt (o : Opnd) (split : BitVec 2) (e : Nat) : Nat := o.reg.toNat * rlenOf split + e * (o.ew / 8)

/-- Element `e` of a group. -/
def Thread.el (t : Thread) (o : Opnd) (e : Nat) : Nat :=
  ofBytesLE (Cells.getRange 0 t.vreg (o.byteAt t.splitV e) (o.ew / 8))

/-- High-water length of the register that holds storage bytes `a` to `a + n - 1` (R177). -/
def Thread.raiseHw (t : Thread) (a n : Nat) : Thread :=
  let r := rlenOf t.splitV
  let v := a / r
  let last := a % r + n
  let old := (t.hw.toList.getD v 0).toNat
  { t with hw := t.hw.setIfInBounds v (BitVec.ofNat 14 (max old last)) }

/-- Write element `e` of a group (R175, R177). -/
def Thread.setEl (t : Thread) (o : Opnd) (e v : Nat) : Thread :=
  let a := o.byteAt t.splitV e
  { t.raiseHw a (o.ew / 8) with vreg := Cells.setRange 0 t.vreg a (bytesLE (o.ew / 8) v) }

/-- A mask register, and bit `e` of one (R176). -/
def Thread.mask (t : Thread) (m : Nat) : BitVec 8192 := t.m.toList.getD m 0
def Thread.maskBit (t : Thread) (m e : Nat) : Bool := (t.mask m).getLsbD e

/-- Element `e` is active under an optional governing mask (R176). -/
def Thread.active (t : Thread) (gov : Option Nat) (e : Nat) : Bool :=
  match gov with
  | none => true
  | some m => t.maskBit m e

/-- `src` of R195: the element a modified source delivers for element `e`. -/
def Thread.srcEl (t : Thread) (o : Opnd) (md : BitVec 12) (vl e : Nat) : Nat :=
  let v := md.toNat
  let cls := fld v 9 3
  let size := fld v 6 3
  let dist := fld v 0 6
  let j :=
    if cls = 1 then (e + dist) % vl
    else if cls = 2 then e ^^^ 2 ^ size
    else if cls = 3 then e / 2 ^ size * 2 ^ size + dist
    else if cls = 4 then dist + e % 2 ^ (size % 4)
    else e
  if o.cap t.splitV ≤ j then 0 else t.el o j

/-- The elements an instruction performs: from VSTART up to the limit. -/
def elems (lo hi : Nat) : List Nat := (List.range hi).drop lo

/-- Write one destination element by its class below VL (R175). -/
def putEl (t : Thread) (d : Opnd) (mp : Bool) (act : Bool) (e v : Nat) : Thread :=
  if act then t.setEl d e v else if mp then t.setEl d e 0 else t

/-- Tail elements, written when the instruction completes (R175). -/
def putTail (t : Thread) (d : Opnd) (tp : Bool) (vl : Nat) : Thread :=
  if tp then (elems vl (d.cap t.splitV)).foldl (fun t e => t.setEl d e 0) t else t

/-- A mask register written by R202: `r e` for an active element, with `lo` the first and `vl` the vector length. -/
def maskResult (old : BitVec 8192) (lo vl : Nat) (mp tp : Bool) (act r : Nat → Bool) : BitVec 8192 :=
  let low := (List.range (min vl 8192)).foldl (fun acc e =>
    let b := if e < lo then old.getLsbD e else if act e then r e else if mp then false else old.getLsbD e
    if b then acc ||| BitVec.ofNat 8192 (2 ^ e) else acc) (0 : BitVec 8192)
  if tp then low else low ||| ((old >>> vl) <<< vl)

def Thread.setMask (t : Thread) (m : Nat) (v : BitVec 8192) : Thread := { t with m := t.m.setIfInBounds m v }

end
end Sys2Proof.Machine
end

