-- ==== Sys2Proof/Machine/VCore.lean ====
section
/-! DEFINITION. The shared forms of the vector side's effects: elementwise results, masks and scalars, over a queue entry with what
it captured (spec/08_lanes_and_vector_operations.md R188 to R193). -/

namespace Sys2Proof.Machine
open Sys2Proof

noncomputable section

/-- What starting an entry comes to (R164, R274). -/
inductive Eff where
  /-- every element up to the limit is performed -/
  | done (s : State) (t : Thread)
  /-- elements below `f` are performed, and element `f` raises the trap -/
  | fault (s : State) (t : Thread) (f : Nat) (tr : Trap)
  /-- the engine does not accept the entry yet; elements below `f` are performed -/
  | hold (s : State) (t : Thread) (f : Nat)
  /-- started, and waiting for other members, a message or a drain -/
  | started (s : State) (t : Thread)
  deriving DecidableEq, Repr

/-- The second operand of a V-layout instruction (R191). -/
inductive Src2 where
  | vec | gen | imm
  deriving DecidableEq, Repr

/-- The governing mask of an instruction with a vm bit (R52, R176). -/
def govMask (vm : Bool) (p : Pre) : Option Nat := if vm then some (preMask p).toNat else none

def vGov (o : VOps) : Option Nat := govMask o.vm o.pre

/-- Operands at the entry's own width and group. -/
def QEntry.opnd (e : QEntry) (r : BitVec 6) : Opnd := ⟨r, grpOf e.vtype, ewBits e.vtype⟩
/-- Operands at twice, and four times, the width and group (R199, R200, R205). -/
def QEntry.wide (e : QEntry) (r : BitVec 6) : Opnd := ⟨r, 2 * grpOf e.vtype, 2 * ewBits e.vtype⟩
def QEntry.quad (e : QEntry) (r : BitVec 6) : Opnd := ⟨r, 4 * grpOf e.vtype, 4 * ewBits e.vtype⟩

/-- The value of the second operand for element `k`, as a pattern of `ew` bits (R191, R195). -/
def second (t : Thread) (e : QEntry) (o : VOps) (kind : Src2) (b : Opnd) (k : Nat) : Nat :=
  match kind with
  | .vec => t.srcEl b (preMb o.pre) e.vl.toNat k
  | .gen => e.gb.toNat % 2 ^ b.ew
  | .imm => wrapTo b.ew (toSigned 5 o.b.toNat)

/-- The shift count of the second operand: gB[63:0] in a .VG form (R191). -/
def secondCount (t : Thread) (e : QEntry) (o : VOps) (kind : Src2) (b : Opnd) (k : Nat) : Nat :=
  match kind with
  | .vec => t.srcEl b (preMb o.pre) e.vl.toNat k
  | .gen => e.gb.toNat
  | .imm => wrapTo 64 (toSigned 5 o.b.toNat)

/-- An elementwise result: elements from VSTART to the limit, each with its flags, read as the registers stood at the start; tail
elements when the limit is VL (R174, R175, R102). -/
def elementwise (s : State) (t : Thread) (e : QEntry) (gov : Option Nat) (d : Opnd) (limit : Nat)
    (f : Nat → Nat × Flg) : Eff :=
  let u := (elems e.vstart.toNat limit).foldl (fun u k =>
    let act := t.active gov k
    let r := if act then f k else (0, 0)
    (putEl u d (maskZero e.vtype) act k r.1).raise r.2) t
  .done s (if limit = e.vl.toNat then putTail u d (tailZero e.vtype) limit else u)

/-- A mask result of a compare (R202). -/
def maskwise (s : State) (t : Thread) (e : QEntry) (gov : Option Nat) (m limit : Nat) (f : Nat → Bool × Flg) : Eff :=
  let ks := (elems e.vstart.toNat limit).filter (t.active gov)
  let fl := ks.foldl (fun acc k => acc ||| (f k).2) (0 : Flg)
  let full := limit = e.vl.toNat
  let act (k : Nat) : Bool := t.active gov k
  let old := t.mask m
  let v := maskResult old e.vstart.toNat limit (maskZero e.vtype) (full && tailZero e.vtype) act fun k => (f k).1
  .done s ((t.setMask m v).raise fl)

end
end Sys2Proof.Machine
end

