-- ==== Sys2Proof/Machine/VFloat.lean ====
section
/-! DEFINITION. Floating-point vector operations and conversions (spec/08_lanes_and_vector_operations.md R203 to R205;
spec/04_number_formats.md R111). -/

namespace Sys2Proof.Machine
open Sys2Proof

noncomputable section

/-- The format of a VF element code (R55). -/
def vfFmt (e : BitVec 3) : Fmt := if e = 1 then .bf16 else .f32

def QEntry.mode (e : QEntry) : Rm := Rm.ofCode e.frm.toNat
/-- The mode of an override under the captured FRM (R89). -/
def QEntry.modeOf (e : QEntry) (r : Nat) : Rm := if r = 7 then e.mode else Rm.ofCode r

/-- The hash of element `k` (R92). -/
def QEntry.hash (e : QEntry) (k : Nat) : Nat := srHash e.seed k 0

/-- An elementwise operation on two sources and the old destination. -/
abbrev FpOp := Fmt → (a b d : Nat) → Rm → Nat → Res

def fopAdd : FpOp := fun f a b _ m h => fAdd f a b m h
def fopSub : FpOp := fun f a b _ m h => fSub f a b m h
def fopMul : FpOp := fun f a b _ m h => fMul f a b m h
def fopFma : FpOp := fun f a b d m h => fFma f false a b d m h
def fopFnma : FpOp := fun f a b d m h => fFma f true a b d m h
def fopDiv : FpOp := fun f a b _ m h => fDiv f a b m h
def fopSqrt : FpOp := fun f a _ _ m h => fSqrt f a m h
def fopMin : FpOp := fun f a b _ _ _ => fMinMax f false a b
def fopMax : FpOp := fun f a b _ _ _ => fMinMax f true a b

/-- An operation of VF (R203). -/
def vFp (op : FpOp) (kind : Src2) (s : State) (t : Thread) (e : QEntry) (o : VOps) (limit : Nat) : Eff :=
  let d := e.opnd o.d6
  let a := e.opnd o.a6
  elementwise s t e (vGov o) d limit fun k =>
    let r := op (vfFmt o.e) (t.srcEl a (preMa o.pre) e.vl.toNat k) (second t e o kind (e.opnd o.b6) k) (t.el d k) e.mode (e.hash k)
    (r.bits, r.fl)

/-- VFCMP (R203, R128). -/
def vFcmp (cond : Nat) (kind : Src2) (s : State) (t : Thread) (e : QEntry) (o : VOps) (limit : Nat) : Eff :=
  let a := e.opnd o.a6
  maskwise s t e (vGov o) o.d.toNat limit fun k =>
    fCmp (vfFmt o.e) cond (t.srcEl a (preMa o.pre) e.vl.toNat k) (second t e o kind (e.opnd o.b6) k)

/-- One conversion of VFCVT by its code (R204). -/
def vfcvtRes (code a : Nat) (mode : Rm) (h : Nat) : Res :=
  if code = 0 then intToF (toSigned 32 a) .f32 mode h
  else if code = 1 then intToF (Int.ofNat (a % 2 ^ 32)) .f32 mode h
  else if code = 2 then let r := fToInt (decodeF .f32 a) true 32 mode h; ⟨wrapTo 32 r.1, r.2⟩
  else if code = 3 then let r := fToInt (decodeF .f32 a) false 32 mode h; ⟨wrapTo 32 r.1, r.2⟩
  else if code = 4 then fCvt .f32 .bf16 a mode h
  else fCvt .bf16 .f32 a mode h

/-- Destination and source of a VFCVT code (R204). -/
def vfcvtOpnds (e : QEntry) (o : VOps) : Opnd × Opnd :=
  if o.b = 4 then (e.opnd o.d6, e.wide o.a6)
  else if o.b = 5 then (e.wide o.d6, e.opnd o.a6)
  else (e.opnd o.d6, e.opnd o.a6)

/-- VFCVT (R204). -/
def effVfcvt (s : State) (t : Thread) (e : QEntry) (o : VOps) (limit : Nat) : Eff :=
  let p := vfcvtOpnds e o
  elementwise s t e (vGov o) p.1 limit fun k =>
    let r := vfcvtRes o.b.toNat (t.el p.2 k) (e.modeOf o.e.toNat) (e.hash k)
    (r.bits, r.fl)

/-- One step of R111: the narrowed element, the next carry and the flags. -/
def efStep (target : Fmt) (x carry : Nat) (mode : Rm) (h : Nat) : Nat × Nat × Flg :=
  let v := ((decodeF .f32 x).add (decodeF .f32 carry) mode)
  let r := roundTo v.1 target mode h
  let fl := r.fl ||| snanFl .f32 [x, carry] ||| flIf v.2 flNV
  let rv := decodeF target r.bits
  if v.1.isFinite && rv.isFinite then
    (r.bits, (roundTo (v.1.add rv.neg .rne).1 .f32 .rne 0).bits, fl)
  else (r.bits, 0, fl)

/-- VFCVT.EF: elements in order, each error carried to the next active element (R205, R111). -/
def effVfcvtEf (s : State) (t : Thread) (e : QEntry) (o : VOps) (limit : Nat) : Eff :=
  let target := if o.b = 0 then Fmt.bf16 else Fmt.e4m3
  let src := if o.b = 0 then e.wide o.a6 else e.quad o.a6
  let d := e.opnd o.d6
  let u := (elems e.vstart.toNat limit).foldl (fun (u : Thread) k =>
    if t.active (vGov o) k then
      let r := efStep target (t.el src k) u.carry.toNat (e.modeOf o.e.toNat) (e.hash k)
      { (u.setEl d k r.1).raise r.2.2 with carry := BitVec.ofNat 32 r.2.1 }
    else putEl u d (maskZero e.vtype) false k 0) t
  .done s (if limit = e.vl.toNat then putTail u d (tailZero e.vtype) limit else u)

end
end Sys2Proof.Machine
end

