-- ==== Sys2Proof/Machine/VMem.lean ====
section
/-! DEFINITION. Vector memory: addresses, conversions and block scales, loads, stores, segments, fault-only-first, codebooks, spill
frames (spec/11_scratchpads_and_vector_memory.md R270 to R278; spec/07_vector_register_storage.md R182 to R185). -/

namespace Sys2Proof.Machine
open Sys2Proof

noncomputable section

/-- A memory format (R55). -/
inductive MFmt where
  | int (bytes : Nat)
  | fp (f : Fmt)
  | c4
  | bad
  deriving DecidableEq, Repr

def MFmt.ofCode (c : Nat) : MFmt :=
  if c < 8 then .int (2 ^ (c % 4))
  else if c = 8 then .fp .bf16 else if c = 9 then .fp .f32 else if c = 10 then .fp .f16
  else if c = 11 then .fp .e4m3 else if c = 12 then .fp .e5m2 else if c = 13 then .c4 else .bad

/-- Bytes of one element access; a c4 element is reached in its byte (R273). -/
def MFmt.bytes : MFmt → Nat
  | .int n => n
  | .fp f => f.bits / 8
  | .c4 => 1
  | .bad => 1

/-- The pairs of memory format and element width of R271. -/
def MFmt.pairs (f : MFmt) (ew : Nat) : Bool :=
  match f with
  | .int n => 8 * n == ew
  | .bad => false
  | _ => ew == 16 || ew == 32

/-- The register format of a float element (R271). -/
def regFmt (ew : Nat) : Fmt := if ew = 16 then .bf16 else .f32

/-- A block scale: none without a SCALE prefix, `some none` for a NaN scale, else the exponent (R85). -/
abbrev ScaleV := Option (Option Int)
def scaleOf (b : Nat) : Option Int := if b = 255 then none else some (Int.ofNat b - 127)

/-- A source element as a pattern of `dst`, with its flags (R80, R83, R85, R271). -/
def loadTo (f : MFmt) (dst : Fmt) (raw : Nat) (cb : BitVec 256) (sc : ScaleV) (mode : Rm) (h : Nat) : Res :=
  let go (src : Fmt) (w : Nat) (exact : Bool) : Res :=
    match sc with
    | some none => ⟨dst.canon, 0⟩
    | some (some k) => roundTo ((decodeF src w).scale k) dst mode h
    | none =>
      if exact then (if isNaNBits src w then ⟨dst.canon, 0⟩ else ⟨(fCvt src dst w mode h).bits, 0⟩)
      else fCvt src dst w mode h
  match f with
  | .int _ => ⟨raw, 0⟩
  | .fp src => go src raw false
  | .c4 => go .bf16 (cbNum cb raw) (dst == .bf16 || dst == .f32)
  | .bad => ⟨raw, 0⟩

/-- A loaded element as the register's pattern. -/
def loadConv (f : MFmt) (ew raw : Nat) (cb : BitVec 256) (sc : ScaleV) (mode : Rm) (h : Nat) : Res :=
  loadTo f (regFmt ew) raw cb sc mode h

/-- An element of format `src` as the destination's pattern, with its flags; for c4 the index (R80, R81, R84, R85, R271). -/
def storeFrom (f : MFmt) (src : Fmt) (x : Nat) (cb : BitVec 256) (sc : ScaleV) (mode : Rm) (h : Nat) : Res :=
  let v := decodeF src x
  match f with
  | .int _ => ⟨x, 0⟩
  | .fp dst =>
    match sc with
    | some none => ⟨dst.canon, 0⟩
    | some (some k) =>
      let r := roundTo (v.scale (-k)) dst mode h
      ⟨r.bits, r.fl ||| snanFl src [x]⟩
    | none => fCvt src dst x mode h
  | .c4 =>
    let v := match sc with
      | some none => Val.nan
      | some (some k) => v.scale (-k)
      | none => v
    let r := cbEncode cb v
    ⟨r.1, r.2⟩
  | .bad => ⟨x, 0⟩

/-- A stored element as the memory's pattern. -/
def storeConv (f : MFmt) (ew x : Nat) (cb : BitVec 256) (sc : ScaleV) (mode : Rm) (h : Nat) : Res :=
  storeFrom f (regFmt ew) x cb sc mode h

/-! ### Checking a list of accesses (R364, R274) -/

/-- One access of an element: its element number, address, width and kind. -/
structure Want where
  elem : Nat
  va : BitVec 64
  bytes : Nat
  kind : Acc1
  log : Bool
  deriving DecidableEq, Repr

/-- What translating ahead finds: a tile in transit, the lowest failing element with its fault, and the pages it translated. -/
structure Ahead where
  st : State
  waits : Bool := false
  bad : Option (Nat × Trap) := none
  pages : List PageAt := []
  deriving DecidableEq, Repr

def Ahead.add (x : Ahead) (e : Nat) (tr : Trap) : Ahead :=
  match x.bad with
  | some (f, _) => if e < f then { x with bad := some (e, tr) } else x
  | none => { x with bad := some (e, tr) }

/-- Bytes of the page, and whether an address lies on it. -/
def PageAt.size (p : PageAt) : Nat := 2 ^ (12 + 9 * p.level)
def PageAt.covers (p : PageAt) (va : BitVec 64) : Bool := p.page == va.toNat / p.size

/-- An address that no page table translates: in an aperture, a tiled window or a range of the version table (R358). -/
def unpaged (s : State) (w : Who) (va : BitVec 64) (k : Acc1) : Bool :=
  let p := s.parts.toList.getD w.part {}
  (aperture p w.slot va k).isSome || (p.tileOf va).isSome || (versionHit s w va k).isSome

/-- The pages recorded that hold an address: a page above 4 KiB holds none of another range that lies within it. -/
def pagesAt (ps : List PageAt) (s : State) (w : Who) (va : BitVec 64) (k : Acc1) : List PageAt :=
  ps.filter fun p => p.covers va && (p.level == 0 || !unpaged s w va k)

/-- The page of an address among those translated for a kind of access. -/
def pageOf (ps : List PageAt) (s : State) (w : Who) (va : BitVec 64) (k : Acc1) : Option PageAt :=
  (pagesAt ps s w va k).find? fun p => p.kind == k

/-- The pages with one more, where a translation gave the address `va` the key `key`: the page of the leaf's level. An aperture and a tiled window
have no pages. One instruction uses one translation of a page: a read takes what a write recorded, and a write replaces what a read did (R371). -/
def addPage (ps : List PageAt) (s : State) (w : Who) (va : BitVec 64) (k : Acc1) : Loc → List PageAt
  | .mem key =>
    let p := s.parts.toList.getD w.part {}
    if (pageOf ps s w va k).isSome || (aperture p w.slot va k).isSome || (p.tileOf va).isSome then ps
    else
      let n := if (versionHit s w va k).isSome then 0 else leafLevel s w.aspace va k
      let size := 2 ^ (12 + 9 * n)
      let new : PageAt := ⟨va.toNat / size, k, key - va.toNat % size, n⟩
      match pagesAt ps s w va k with
      | [] => new :: ps
      | q :: qs =>
        if k.writes then new :: ps.map (fun x => if (q :: qs).contains x then { new with kind := x.kind } else x)
        else { q with kind := k } :: ps
  | _ => ps

/-- Where an access of an entry is performed: on the page that was translated, else where a translation leads now. -/
def locateAt (ps : List PageAt) (s : State) (w : Who) (va : BitVec 64) (k : Acc1) (log : Bool) : Found × State :=
  match pageOf ps s w va k with
  | some p =>
    let key := p.key + va.toNat % p.size
    if p.level = 0 then (.at (.mem key), s)
    else match checkPhys s (s.parts.toList.getD w.part {}) va k key with
      | .ok pa => (.at (.mem pa), s)
      | .error tr => (.bad tr, s)
  | none => locate s w va k log

/-- Translate every page before anything is performed; at one element a misalignment comes before a translation fault (R364). -/
def ahead (w : Who) (x : Ahead) : List Want → Ahead
  | [] => x
  | a :: as =>
    if !aligned a.va a.bytes then ahead w (x.add a.elem { code := 2, addr := a.va, acc := a.kind.code }) as
    else match locateAt x.pages x.st w a.va a.kind a.log with
      | (.at l, s) => ahead w { x with st := s, pages := addPage x.pages s w a.va a.kind l } as
      | (.wait, s) => ahead w { x with st := s, waits := true } as
      | (.bad tr, s) => ahead w ({ x with st := s }.add a.elem tr) as

/-- For whom a queue entry accesses memory: tagged with the version it captured (R345). -/
def QEntry.who (e : QEntry) (t : Thread) : Who := ⟨t.slot, t.part, t.sup, t.aspace, e.ver⟩

/-- The run-ahead step of an entry after that of its streams. One that goes on takes it again for what is left: its pages are as they were
translated, and a tile that has moved since is waited for or fetched (R328, R329, R364). -/
def runAhead (s : State) (t : Thread) (e : QEntry) (as : List Want) : Ahead :=
  ahead (e.who t) { st := s, bad := e.stopAt, pages := e.pages } as

/-- The failing element, where it lies below a limit. -/
def Ahead.badBelow (x : Ahead) (limit : Nat) : Option (Nat × Trap) := x.bad.filter fun p => p.1 < limit

/-- Where the elements to be performed end. -/
def Ahead.stop (x : Ahead) (limit : Nat) : Nat :=
  match x.badBelow limit with
  | some (f, _) => f
  | none => limit

/-- An entry keeps what its run-ahead step found, for the elements that it performs later. -/
def Thread.keepPages (t : Thread) (e : QEntry) (ps : List PageAt) (bad : Option (Nat × Trap)) : Thread :=
  { t with queue := t.queue.map fun q => if q.seq = e.seq then { q with pages := ps, stopAt := bad } else q }

def Thread.keepAhead (t : Thread) (e : QEntry) (x : Ahead) : Thread := t.keepPages e x.pages x.bad

/-- An outcome after the run-ahead step `x`: the fault of the failing element below the limit, or what is kept for later (R274). -/
def Eff.after (r : Eff) (e : QEntry) (x : Ahead) (limit : Nat) : Eff :=
  match r, x.badBelow limit with
  | .done s u, some (f, tr) => .fault s u f tr
  | .done s u, none => .done s (u.keepAhead e x)
  | .hold s u f, _ => .hold s (u.keepAhead e x) f
  | r, _ => r

/-- Memory as the thread's own V stream sees it: with the stores that it holds (R275, R391). -/
def viewV (s : State) (t : Thread) : State := { s with mem := performV s.mem t.vbuf }

/-- What a load of `n` bytes already checked reads, or the old bytes under a store that `log` admits to a log. -/
def readNow (ps : List PageAt) (s : State) (t : Thread) (w : Who) (va : BitVec 64) (k : Acc1) (n : Nat) (log : Bool := false) : Nat :=
  match locateAt ps s w va k log with
  | (.at l, s) => loadT (viewV s t) t l n
  | (_, _) => 0

/-- The outcome of storing one element. -/
inductive StoreOut where
  | ok (s : State) (t : Thread)
  | wait (s : State)
  | bad (s : State) (tr : Trap)
  deriving DecidableEq, Repr

/-- The sequence number under which the stores of an entry's turn are held, where they are (R391). -/
def QEntry.holdsAs (e : QEntry) : Option (BitVec 64) := if e.late then some e.seq else none

/-- A store at a place: held for the entry `late`, where it goes to plain memory; else performed, after those that the V stream holds (R275). -/
def putV (late : Option (BitVec 64)) (s : State) (t : Thread) (va : BitVec 64) (l : Loc) (n v : Nat) : StoreOut :=
  match late, l with
  | some q, .mem key => .ok s { t with vbuf := t.vbuf ++ [⟨q, key, bytesLE n v⟩] }
  | _, l =>
    let r := flushV s t fun _ => true
    match storeT r.1 r.2 va l n v with
    | .ok (s, t) => .ok s t
    | .error tr => .bad s tr

/-- A store of `n` bytes of the vector side: a tile may still have to be fetched, or the combining buffer be full (R333, R405). -/
def storeNow (ps : List PageAt) (late : Option (BitVec 64)) (s : State) (t : Thread) (w : Who) (va : BitVec 64) (n v : Nat) (log : Bool) :
    StoreOut :=
  match locateAt ps s w va .write log with
  | (.at l, s) => putV late s t va l n v
  | (.wait, s) => .wait s
  | (.bad tr, s) => .bad s tr

/-! ### Element addresses (R273) -/

def mGov (o : MOps) : Option Nat := govMask o.vm o.pre

/-- The forms of vector memory instructions. -/
inductive MForm where
  | unit | strided | indexed
  deriving DecidableEq, Repr

/-- The address of element `k`. -/
def elemAddr (t : Thread) (e : QEntry) (o : MOps) (fm : MForm) (f : MFmt) (k : Nat) : BitVec 64 :=
  match fm with
  | .unit => if f = .c4 then e.ga + BitVec.ofNat 64 (k / 2) else e.ga + BitVec.ofNat 64 (k * f.bytes)
  | .strided => e.ga + BitVec.ofNat 64 k * e.gb
  | .indexed => e.ga + BitVec.ofNat 64 (t.el (e.opnd o.b6) k)

/-- The scale register of a SCALE prefix; one whose payload is zero scales nothing (R68, log entry 20). -/
def scaled (o : MOps) : Bool :=
  match o.pre with
  | .scale g => g != 0
  | _ => false

def scaleAddr (e : QEntry) (k : Nat) : BitVec 64 := e.gc + BitVec.ofNat 64 (k / 32)

/-- The codebook a c4 form names. -/
def cbOf (t : Thread) (o : MOps) : BitVec 256 := t.cb.toList.getD (o.b.toNat % 4) 0

def activeFrom (t : Thread) (e : QEntry) (o : MOps) (limit : Nat) : List Nat :=
  (elems e.vstart.toNat limit).filter fun k => t.active (mGov o) k

/-- The accesses of active element `k`. -/
def wants (t : Thread) (e : QEntry) (o : MOps) (fm : MForm) (k : Acc1) (limit : Nat) : List Want :=
  let f := MFmt.ofCode o.f.toNat
  ((activeFrom t e o limit).map fun i =>
    let log := k == .write && f.bytes < 8 && !t.det
    let a : Want := ⟨i, elemAddr t e o fm f i, f.bytes, k, log⟩
    if scaled o then [a, ⟨i, scaleAddr e i, 1, .read, false⟩] else [a]).flatten

/-- The scale in force for element `k` (R85). -/
def scaleNow (ps : List PageAt) (s : State) (t : Thread) (w : Who) (e : QEntry) (o : MOps) (k : Nat) : ScaleV :=
  if scaled o then some (scaleOf (readNow ps s t w (scaleAddr e k) .read 1)) else none

/-- Load element `k` as a register pattern with its flags. -/
def loadElem (ps : List PageAt) (s : State) (t : Thread) (e : QEntry) (o : MOps) (fm : MForm) (k : Nat) : Res :=
  let f := MFmt.ofCode o.f.toNat
  let w := e.who t
  let raw := readNow ps s t w (elemAddr t e o fm f k) .read f.bytes
  let raw := if f = .c4 then fld raw (4 * (k % 2)) 4 else raw
  loadConv f (ewBits e.vtype) raw (cbOf t o) (scaleNow ps s t w e o k) e.mode (e.hash k)

/-- The elements below a stop, loaded. -/
def loadElems (x : Ahead) (t : Thread) (e : QEntry) (o : MOps) (fm : MForm) (stop : Nat) : Eff :=
  elementwise x.st t e (mGov o) (e.opnd o.d6) stop fun k =>
    let r := loadElem x.pages x.st t e o fm k
    (r.bits, r.fl)

/-- A vector load: translate, then perform the active elements below the lowest failing one (R274). -/
def vLoad (fm : MForm) (s : State) (t : Thread) (e : QEntry) (o : MOps) (limit : Nat) : Eff :=
  let x := runAhead s t e (wants t e o fm .read e.vl.toNat)
  if x.waits then .hold x.st t e.vstart.toNat else (loadElems x t e o fm (x.stop limit)).after e x limit

/-- The elements that one access stores: two c4 elements share a byte (R276). -/
def byBytes (c4 : Bool) : List Nat → List (List Nat)
  | [] => []
  | k :: ks =>
    match byBytes c4 ks with
    | [j] :: r => if c4 && k % 2 == 0 && j == k + 1 then [k, j] :: r else [k] :: [j] :: r
    | r => [k] :: r

/-- A nibble of a byte replaced by the pattern of element `k`. -/
def putNibble (old k v : Nat) : Nat := if k % 2 = 0 then old / 16 * 16 + v % 16 else old % 16 + v % 16 * 16

/-- Store elements in ascending order, one access after another (R275, R276). -/
def storeElems (ps : List PageAt) (e : QEntry) (o : MOps) (fm : MForm) (src : Thread) : List (List Nat) → State → Thread → Eff
  | [], s, t => .done s t
  | ks :: rest, s, t =>
    let f := MFmt.ofCode o.f.toNat
    let w := e.who src
    let k := ks.headD 0
    let va := elemAddr src e o fm f k
    let conv (k : Nat) : Res :=
      storeConv f (ewBits e.vtype) (src.el (e.opnd o.d6) k) (cbOf src o) (scaleNow ps s t w e o k) e.mode (e.hash k)
    let log := f.bytes < 8 && !t.det
    let v := if f = .c4 then ks.foldl (fun b k => putNibble b k (conv k).bits) (readNow ps s t w va .write 1 log) else (conv k).bits
    match storeNow ps e.holdsAs s t w va f.bytes v log with
    | .ok s t => storeElems ps e o fm src rest s (t.raise (ks.foldl (fun a k => a ||| (conv k).fl) 0))
    | .wait s => .hold s t k
    | .bad s tr => .fault s t k tr

/-- A vector store (R274, R275). -/
def vStore (fm : MForm) (s : State) (t : Thread) (e : QEntry) (o : MOps) (limit : Nat) : Eff :=
  let x := runAhead s t e (wants t e o fm .write e.vl.toNat)
  if x.waits then .hold x.st t e.vstart.toNat else
  (storeElems x.pages e o fm t (byBytes (o.f.toNat == 13) (activeFrom t e o (x.stop limit))) x.st t).after e x limit

/-! ### Segments (R273) -/

def segAddr (e : QEntry) (o : MOps) (k fi : Nat) : BitVec 64 :=
  e.ga + BitVec.ofNat 64 ((k * (o.b.toNat + 1) + fi) * (MFmt.ofCode o.f.toNat).bytes)

/-- The register group of field `fi`. -/
def segOpnd (e : QEntry) (o : MOps) (fi : Nat) : Opnd :=
  e.opnd (BitVec.ofNat 6 (o.d6.toNat + fi * grpOf e.vtype))

def segWants (t : Thread) (e : QEntry) (o : MOps) (k : Acc1) (limit : Nat) : List Want :=
  let n := (MFmt.ofCode o.f.toNat).bytes
  ((activeFrom t e o limit).map fun i => (List.range (o.b.toNat + 1)).map fun fi =>
    (⟨i, segAddr e o i fi, n, k, k == .write && n < 8 && !t.det⟩ : Want)).flatten

/-- VLDSEG (R274). -/
def effVldseg (s : State) (t : Thread) (e : QEntry) (o : MOps) (limit : Nat) : Eff :=
  let f := MFmt.ofCode o.f.toNat
  let x := runAhead s t e (segWants t e o .read e.vl.toNat)
  if x.waits then .hold x.st t e.vstart.toNat else
  let stop := x.stop limit
  let ew := ewBits e.vtype
  let u := (List.range (o.b.toNat + 1)).foldl (fun u fi =>
    let d := segOpnd e o fi
    let u := (elems e.vstart.toNat stop).foldl (fun u k =>
      let act := t.active (mGov o) k
      let r : Res := if act then
          loadConv f ew (readNow x.pages x.st t (e.who t) (segAddr e o k fi) .read f.bytes) 0 none e.mode (e.hash k)
        else ⟨0, 0⟩
      (putEl u d (maskZero e.vtype) act k r.bits).raise r.fl) u
    if stop = e.vl.toNat then putTail u d (tailZero e.vtype) stop else u) t
  (Eff.done x.st u).after e x limit

/-- Store segment `k` from field `fi` on; where a field is not stored, the field and why. -/
def storeSeg (ps : List PageAt) (e : QEntry) (o : MOps) (src : Thread) (k : Nat) :
    List Nat → State → Thread → Except (Nat × StoreOut) (State × Thread)
  | [], s, t => .ok (s, t)
  | fi :: fis, s, t =>
    let f := MFmt.ofCode o.f.toNat
    let r := storeConv f (ewBits e.vtype) (src.el (segOpnd e o fi) k) 0 none e.mode (e.hash k)
    match storeNow ps e.holdsAs s t (e.who src) (segAddr e o k fi) f.bytes r.bits (f.bytes < 8 && !t.det) with
    | .ok s t => storeSeg ps e o src k fis s (t.raise r.fl)
    | x => .error (fi, x)

/-- Store segments in ascending order. Nothing is performed of one that cannot be performed whole: a field whose log is full has its tile
fetched first (R330, R333, R334). -/
def storeSegs (ps : List PageAt) (e : QEntry) (o : MOps) (src : Thread) : List Nat → State → Thread → Eff
  | [], s, t => .done s t
  | k :: ks, s, t =>
    match storeSeg ps e o src k (List.range (o.b.toNat + 1)) s t with
    | .ok (s, t) => storeSegs ps e o src ks s t
    | .error (_, .bad _ tr) => .fault s t k tr
    | .error (fi, _) => .hold (locateAt ps s (e.who src) (segAddr e o k fi) .write false).2 t k

/-- VSTSEG (R274, R275). -/
def effVstseg (s : State) (t : Thread) (e : QEntry) (o : MOps) (limit : Nat) : Eff :=
  let x := runAhead s t e (segWants t e o .write e.vl.toNat)
  if x.waits then .hold x.st t e.vstart.toNat else
  (storeSegs x.pages e o t (activeFrom t e o (x.stop limit)) x.st t).after e x limit

/-- Record the general result of the entry (R192, R277). -/
def setResult (t : Thread) (e : QEntry) (v : BitVec 64) : Thread :=
  { t with queue := t.queue.map fun q => if q.seq = e.seq then { q with result := some v } else q }

/-- VLDFF: a fault beyond the first active element shortens the load instead of trapping (R277). -/
def effVldff (s : State) (t : Thread) (e : QEntry) (o : MOps) (limit : Nat) : Eff :=
  let vl := e.vl.toNat
  if vl ≤ e.vstart.toNat then .done s (setResult t e (BitVec.ofNat 64 vl)) else
  let x := runAhead s t e (wants t e o .unit .read vl)
  if x.waits then .hold x.st t e.vstart.toNat else
  match loadElems x t e o .unit (x.stop limit), x.badBelow limit with
  | .done s u, none => .done s (if limit = vl then setResult u e (BitVec.ofNat 64 vl) else u.keepAhead e x)
  | .done s u, some (f, tr) =>
    if (activeFrom t { e with vstart := e.base } o vl).head? = some f then .fault s u f tr
    else .done s (setResult (putTail u (e.opnd o.d6) (tailZero e.vtype) f) e (BitVec.ofNat 64 f))
  | r, _ => r

/-- CBLD: 32 bytes into a codebook register (R278). -/
def effCbld (s : State) (t : Thread) (e : QEntry) (o : MOps) : Eff :=
  if !aligned e.ga 32 then .fault s t 0 { code := 2, addr := e.ga, acc := 1 }
  else match locate s (e.who t) e.ga .read false with
    | (.at l, s) => .done s { t with cb := t.cb.setIfInBounds o.d.toNat (BitVec.ofNat 256 (loadT s t l 32)) }
    | (.wait, s) => .hold s t 0
    | (.bad tr, s) => .fault s t 0 tr

/-! ### Spill frames (R182 to R185) -/

/-- The frame's size in bytes. -/
def frameLen (vl ew : Nat) : Nat := (32 + vl * ew / 8 + 31) / 32 * 32

/-- The 32-byte header (R182). -/
def spillHeader (t : Thread) (e : QEntry) : List (BitVec 8) :=
  bytesLE 8 e.vl.toNat ++ bytesLE 8 e.vtype.toNat ++ bytesLE 4 (rlenOf t.splitV) ++ bytesLE 1 (grpOf e.vtype)
    ++ bytesLE 1 t.splitV.toNat ++ bytesLE 10 0

/-- Aligned chunks of `n` bytes covering a range. -/
def chunks (base : BitVec 64) (len n : Nat) : List (BitVec 64) :=
  (List.range (len / n)).map fun i => base + BitVec.ofNat 64 (n * i)

/-- Store the bytes of a run, `n` at a time; none of these stores is logged (R330). -/
def storeRun (ps : List PageAt) (w : Who) (n : Nat) : List (BitVec 64 × Nat) → State → Thread → StoreOut
  | [], s, t => .ok s t
  | (va, v) :: r, s, t =>
    match storeNow ps none s t w va n v false with
    | .ok s t => storeRun ps w n r s t
    | x => x

/-- A run stored whole: where one of its stores cannot be performed, none is (R183, R240, R245, R312, R405). -/
def storeAll (x : Ahead) (w : Who) (n : Nat) (run : List (BitVec 64 × Nat)) (t u : Thread) (vs : Nat) : Eff :=
  match storeRun x.pages w n run x.st u with
  | .ok s u => .done s u
  | .wait _ => .hold x.st t vs
  | .bad _ tr => .fault x.st t vs tr

/-- VSPILL: the whole frame is translated first; header, elements and zero padding (R183, R184). -/
def effVspill (s : State) (t : Thread) (e : QEntry) (o : MOps) : Eff :=
  if !aligned e.ga 32 then .fault s t 0 { code := 2, addr := e.ga, acc := 2 } else
  let ew := ewBits e.vtype
  let vl := e.vl.toNat
  let len := frameLen vl ew
  let n := ew / 8
  let x := ahead (e.who t) { st := s } ((chunks e.ga len n).map fun a => ⟨0, a, n, .write, false⟩)
  if x.waits then .hold x.st t 0 else
  match x.bad with
  | some (_, tr) => .fault x.st t 0 tr
  | none =>
    let data := spillHeader t e ++ ((List.range vl).map fun k => bytesLE n (t.el (e.opnd o.d6) k)).flatten
    let run := (List.range (len / n)).map fun i =>
      (e.ga + BitVec.ofNat 64 (n * i), ofBytesLE ((data.drop (n * i)).take n))
    storeAll x (e.who t) n run t t 0

/-- VFILL's check of a header (R185). -/
def fillOk (t : Thread) (d vl vt g rest : Nat) : Bool :=
  let v : BitVec 6 := BitVec.ofNat 6 vt
  rest == 0 && vt < 64 && g == grpOf v && vl ≤ vlmax v t.splitV && d % g == 0 && d + g ≤ nregsOf t.splitV

/-- VFILL: header first, then the frame it describes (R183, R185). -/
def effVfill (s : State) (t : Thread) (e : QEntry) (o : MOps) : Eff :=
  if !aligned e.ga 32 then .fault s t 0 { code := 2, addr := e.ga, acc := 1 } else
  match locate s (e.who t) e.ga .read false with
  | (.wait, s) => .hold s t 0
  | (.bad tr, s) => .fault s t 0 tr
  | (.at l, s) =>
    let hdr := loadT s t l 32
    let vl := fld hdr 0 64
    let vt := fld hdr 64 64
    let g := fld hdr 160 8
    if !fillOk t o.d6.toNat vl vt g (fld hdr 176 80) then
      .fault s t 0 { code := 13, addr := e.ga, acc := 1 }
    else
      let v : BitVec 6 := BitVec.ofNat 6 vt
      let n := ewBits v / 8
      let x := ahead (e.who t) { st := s } ((chunks e.ga (frameLen vl (ewBits v)) n).map fun a => ⟨0, a, n, .read, false⟩)
      if x.waits then .hold x.st t 0 else
      match x.bad with
      | some (_, tr) => .fault x.st t 0 tr
      | none =>
        let r := rlenOf t.splitV
        let d : Opnd := ⟨o.d6, g, ewBits v⟩
        let clean : Thread := { t with
          vreg := Cells.clearRange t.vreg (o.d6.toNat * r) (g * r),
          hw := (List.range g).foldl (fun hw i => hw.setIfInBounds (o.d6.toNat + i)
            (BitVec.ofNat 14 (min r (vl * n - i * r)))) t.hw }
        let u := (List.range vl).foldl (fun (u : Thread) k =>
          let w := readNow x.pages x.st t (e.who t) (e.ga + BitVec.ofNat 64 (32 + n * k)) .read n
          { u with vreg := Cells.setRange 0 u.vreg (d.byteAt t.splitV k) (bytesLE n w) }) clean
        .done x.st u

end
end Sys2Proof.Machine
end

