-- ==== Sys2Proof/Machine/Lattice.lean ====
section
/-! DEFINITION. The lattice: tiles, weight planes, streaming and outer products, extraction, images, tile registers
(spec/09_lattice_and_accumulators.md R223 to R245). -/

namespace Sys2Proof.Machine
open Sys2Proof

noncomputable section

/-! ### Handles, planes and tile registers -/

/-- The tile bound to handle a0 or a1. -/
def Thread.hnd (t : Thread) (h : Nat) : Option BoundTile := if h = 0 then t.h0 else t.h1

def Thread.setHnd (t : Thread) (h : Nat) (b : Option BoundTile) : Thread :=
  if h = 0 then { t with h0 := b } else { t with h1 := b }

def Thread.tiles (t : Thread) : List Nat := (t.h0.toList ++ t.h1.toList).map fun b => b.tile

/-- The tiles of a facet that no placed thread holds (R223). -/
def freeTiles (s : State) (f : Nat) : List Nat :=
  let used := ((s.threads.filter fun t => t.facet == f).map Thread.tiles).flatten
  [0, 1].filter fun k => !used.contains k

def BoundTile.activePlane (b : BoundTile) : Cells (BitVec 32) × BitVec 2 :=
  if b.active then (b.plane1, b.fmt1) else (b.plane0, b.fmt0)

/-- Replace the shadow plane (R231). -/
def BoundTile.setShadow (b : BoundTile) (p : Cells (BitVec 32)) (f : BitVec 2) : BoundTile :=
  if b.active then { b with plane0 := p, fmt0 := f } else { b with plane1 := p, fmt1 := f }

def BoundTile.at (b : BoundTile) (i j : Nat) : Acc := Cells.get Acc.zero b.acc (32 * i + j)
def BoundTile.put (b : BoundTile) (i j : Nat) (v : Acc) : BoundTile :=
  { b with acc := Cells.set Acc.zero b.acc (32 * i + j) v }

/-- Element (i, j) of tile register `k` (R223). -/
def Thread.tr (t : Thread) (k i j : Nat) : BitVec 32 := Cells.get 0 t.treg (1024 * k + 32 * i + j)
def Thread.setTr (t : Thread) (k i j : Nat) (v : BitVec 32) : Thread :=
  { t with treg := Cells.set 0 t.treg (1024 * k + 32 * i + j) v }

/-- Update the tile of a handle; an unbound handle holds nothing to update. -/
def withTile (s : State) (t : Thread) (h : Nat) (f : BoundTile → Eff) : Eff :=
  match t.hnd h with
  | some b => f b
  | none => .done s t

/-- The governing mask of a TILE prefix (R225). -/
def tileGov : Pre → Option Nat
  | .tile tx _ => if txMv tx then some (txMask tx) else none
  | _ => none
/-- The rounding override of a TILE prefix (R225, R89); without one RM reads as 7. DEDUCED: a TILE prefix whose payload is all zero holds
RM = 0, which is rne, since `axtr.rne` has no other encoding; R68 read alone would take FRM there (log entry 110). -/
def tileRm : Pre → BitVec 3
  | .tile tx _ => BitVec.ofNat 3 (txRm tx)
  | _ => 7

/-- The format a LAT instruction names in Q[0] (R234). -/
def latFmt (q : BitVec 4) : Fmt := if q.getLsbD 0 then .f32 else .bf16

/-! ### Binding (R227 to R230) -/

/-- Bind a cleared tile (R228). -/
def bindTile (t : Thread) (h tile : Nat) : Thread := t.setHnd h (some { tile := tile })

/-- AALLOC without the wait flag. Waiters are served before it (R228). -/
def effAalloc (s : State) (t : Thread) (e : QEntry) (o : XOps) : Eff :=
  match (s.facet t.facet).waiters, freeTiles s t.facet with
  | [], k :: _ => .done s (setResult (bindTile t o.a.toNat k) e 0)
  | _, _ => .done s (setResult t e 1)

/-- AALLOC.wait: binds at once, or joins the waiters of its facet (R228). -/
def effAallocWait (s : State) (t : Thread) (e : QEntry) (o : XOps) : Eff :=
  let f := s.facet t.facet
  match f.waiters, freeTiles s t.facet with
  | [], k :: _ => .done s (setResult (bindTile t o.a.toNat k) e 0)
  | _, _ =>
    let f' := { f with waiters := f.waiters ++ [(⟨t.slot, s.nextOp⟩ : Waiter)] }
    .started (({ s with nextOp := s.nextOp + 1 } : State).setFacet t.facet f') t

/-- AFREE (R229). -/
def effAfree (s : State) (t : Thread) (_e : QEntry) (o : XOps) : Eff := .done s (t.setHnd o.d.toNat none)

/-- ACLR (R230). -/
def effAclr (s : State) (t : Thread) (_e : QEntry) (o : XOps) : Eff :=
  withTile s t o.d.toNat fun b => .done s (t.setHnd o.d.toNat (some { b with acc := [] }))

/-! ### Weight planes (R231 to R233) -/

/-- The weights of a plane from a list of rows of 32, row-major. -/
def planeOf (f : Nat → BitVec 32) (n : Nat) : Cells (BitVec 32) :=
  (List.range n).foldl (fun p i => Cells.set 0 p i (f i)) []

/-- LDWS (R232). -/
def effLdws (s : State) (t : Thread) (e : QEntry) (o : XOps) : Eff :=
  withTile s t o.d.toNat fun b =>
    let h := o.d.toNat
    let vl := e.vl.toNat
    let a := e.opnd o.a6
    let b' : BoundTile :=
      match o.q.toNat with
      | 0 => b.setShadow (planeOf (fun i => t.tr o.a.toNat (i / 32) (i % 32)) 1024) 1
      | 1 => b.setShadow (planeOf (fun i => (t.tr o.a.toNat (i / 32) (i % 32)) &&& 0xFFFF) 1024) 0
      | 2 => b.setShadow (planeOf (fun i => BitVec.ofNat 32 (t.el a i)) vl) 0
      | 3 => b.setShadow (planeOf (fun i => BitVec.ofNat 32 (t.el a i)) vl) 1
      | _ =>
        let cb := t.cb.toList.getD (o.b.toNat % 4) 0
        b.setShadow (planeOf (fun i => BitVec.ofNat 32 (cbEntry cb (fld (t.el a (i / 2)) (4 * (i % 2)) 4))) (2 * vl)) 0
    .done s (t.setHnd h (some b'))

/-- SWPL (R233). -/
def effSwpl (s : State) (t : Thread) (_e : QEntry) (o : XOps) : Eff :=
  withTile s t o.d.toNat fun b => .done s (t.setHnd o.d.toNat (some { b with active := !b.active }))

/-! ### Streaming and outer products (R234 to R237) -/

/-- Rows of an instruction from VSTART to the limit that the mask admits. -/
def latRows (t : Thread) (e : QEntry) (p : Pre) (limit : Nat) : List Nat :=
  (elems (e.vstart.toNat / 32) (limit / 32)).filter fun i => t.active (tileGov p) i

/-- Add the exact product of two patterns of two formats to an element (R235, R237). -/
def accMul (neg : Bool) (b : BoundTile × Flg) (i j : Nat) (fx : Fmt) (x : Nat) (fw : Fmt) (w : Nat) : BoundTile × Flg :=
  let r := (decodeF fx x).mul (decodeF fw w)
  (b.1.put i j ((b.1.at i j).addVal (if neg then r.1.neg else r.1) r.2),
    b.2 ||| flIf (isSNaNBits fx x || isSNaNBits fw w) flNV)

/-- MSTREAM (R235). -/
def effMstream (s : State) (t : Thread) (e : QEntry) (o : XOps) (limit : Nat) : Eff :=
  withTile s t o.d.toNat fun b =>
    let fx := latFmt o.q
    let a := e.opnd o.a6
    let pl := b.activePlane
    let fw : Fmt := if pl.2 = 1 then .f32 else .bf16
    let row0 := e.gb.toNat
    let r := (latRows t e o.pre limit).foldl (fun b i =>
      (List.range 1024).foldl (fun b nk =>
        accMul false b (row0 + i) (nk / 32) fx (t.el a (32 * i + nk % 32)) fw
          (Cells.get 0 pl.1 (32 * (nk % 32) + nk / 32)).toNat) b) (b, (0 : Flg))
    .done s ((t.setHnd o.d.toNat (some r.1)).raise r.2)

/-- MOPA and MOPS (R236). -/
def effMop (neg : Bool) (s : State) (t : Thread) (e : QEntry) (o : XOps) (limit : Nat) : Eff :=
  withTile s t o.d.toNat fun b =>
    let f := latFmt o.q
    let a := e.opnd o.a6
    let y := e.opnd o.b6
    let r := (latRows t e o.pre limit).foldl (fun b k =>
      (List.range 1024).foldl (fun b ij =>
        accMul neg b (ij / 32) (ij % 32) f (t.el a (32 * k + ij / 32)) f (t.el y (32 * k + ij % 32))) b) (b, (0 : Flg))
    .done s ((t.setHnd o.d.toNat (some r.1)).raise r.2)

/-! ### Extraction (R238, R239) -/

/-- AXTR, and AXTC with rows and columns exchanged. -/
def effAxt (col : Bool) (s : State) (t : Thread) (e : QEntry) (o : XOps) : Eff :=
  withTile s t o.a.toNat fun b =>
    let gov := tileGov o.pre
    let line := e.gb.toNat
    let pos (k : Nat) : Nat × Nat := if col then (k, line) else (line, k)
    let act := (List.range e.vl.toNat).filter fun k => t.active gov k
    if act.any fun k => (b.at (pos k).1 (pos k).2).poison then .fault s t 0 { code := 12 }
    else
      let md := overrideMode (tileRm o.pre) e.frm
      let res (k : Nat) : Res :=
        let p := pos k
        (b.at p.1 p.2).extract (latFmt o.q) md (srHash e.seed 0 (0x10000000 + 32 * p.1 + p.2))
      match elementwise s t e gov (e.opnd o.d6) e.vl.toNat (fun k => ((res k).bits, (res k).fl)) with
      | .done s u =>
        let b' := if o.q.getLsbD 1 then act.foldl (fun b k => b.put (pos k).1 (pos k).2 Acc.zero) b else b
        .done s (u.setHnd o.a.toNat (some b'))
      | r => r

/-! ### Images (R240, R241) -/

def tileImageBytes : Nat := 98304

/-- Check an image's pages before any access (R240). -/
def imageAccess (kind : Acc1) (s : State) (t : Thread) (e : QEntry) (k : Ahead → Eff) : Eff :=
  if !aligned e.ga 32 then .fault s t 0 { code := 2, addr := e.ga, acc := kind.code } else
  let x := ahead (e.who t) { st := s } ((chunks e.ga tileImageBytes 8).map fun a => ⟨0, a, 8, kind, false⟩)
  if x.waits then .hold x.st t 0 else
  match x.bad with
  | some (_, tr) => .fault x.st t 0 tr
  | none => k x

/-- The 96-byte image of element `k` in memory. -/
def imageElem (x : Ahead) (t : Thread) (e : QEntry) (k : Nat) : Acc :=
  Acc.ofImage ((List.range 12).map fun i =>
    bytesLE 8 (readNow x.pages x.st t (e.who t) (e.ga + BitVec.ofNat 64 (96 * k + 8 * i)) .read 8)).flatten

/-- ASAVE. -/
def effAsave (s : State) (t : Thread) (e : QEntry) (o : XOps) : Eff :=
  withTile s t o.d.toNat fun b => imageAccess .write s t e fun x =>
    let run := ((List.range 1024).map fun k => (List.range 12).map fun i =>
      (e.ga + BitVec.ofNat 64 (96 * k + 8 * i), ofBytesLE (((Cells.get Acc.zero b.acc k).image.drop (8 * i)).take 8))).flatten
    storeAll x (e.who t) 8 run t t 0

/-- ALOAD, and AADDI where the image is combined with the element (R107, R110). -/
def effAimage (add : Bool) (s : State) (t : Thread) (e : QEntry) (o : XOps) : Eff :=
  withTile s t o.d.toNat fun b => imageAccess .read s t e fun x =>
    let acc := (List.range 1024).foldl (fun acc k =>
      let y := imageElem x t e k
      Cells.set Acc.zero acc k (if add then (Cells.get Acc.zero b.acc k).combine y else y)) b.acc
    .done x.st (t.setHnd o.d.toNat (some { b with acc := acc }))

/-! ### Tile registers (R243 to R245) -/

/-- TROW (R244). -/
def effTrow (s : State) (t : Thread) (e : QEntry) (o : XOps) (limit : Nat) : Eff :=
  let a := e.opnd o.a6
  let row0 := e.gb.toNat
  .done s ((elems e.vstart.toNat limit).foldl (fun u k =>
    if t.active (tileGov o.pre) k then u.setTr o.d.toNat (row0 + k / 32) (k % 32) (BitVec.ofNat 32 (t.el a k)) else u) t)

/-- TCOL (R244). -/
def effTcol (s : State) (t : Thread) (e : QEntry) (o : XOps) (limit : Nat) : Eff :=
  let col0 := e.gb.toNat
  let n := ewBits e.vtype
  elementwise s t e (tileGov o.pre) (e.opnd o.d6) limit fun k =>
    ((t.tr o.a.toNat (k % 32) (col0 + k / 32)).toNat % 2 ^ n, 0)

/-- The element size of TLD and TST (R243). -/
def trSize (o : XOps) : Nat := if o.q.getLsbD 0 then 2 else 4

def trAddr (e : QEntry) (o : XOps) (k : Nat) : BitVec 64 :=
  e.ga + BitVec.ofNat 64 (k / 32) * e.gb + BitVec.ofNat 64 (trSize o * (k % 32))

/-- Alignment of gA and gB, then every page (R245). -/
def trAccess (kind : Acc1) (s : State) (t : Thread) (e : QEntry) (o : XOps) (k : Ahead → Eff) : Eff :=
  let n := trSize o
  if !aligned e.ga n then .fault s t 0 { code := 2, addr := e.ga, acc := kind.code }
  else if !aligned e.gb n then .fault s t 0 { code := 2, addr := e.ga + e.gb, acc := kind.code }
  else
    let x := ahead (e.who t) { st := s } ((List.range 1024).map fun i =>
      ⟨0, trAddr e o i, n, kind, false⟩)
    if x.waits then .hold x.st t 0 else
    match x.bad with
    | some (_, tr) => .fault x.st t 0 tr
    | none => k x

/-- TLD (R245). -/
def effTld (s : State) (t : Thread) (e : QEntry) (o : XOps) : Eff :=
  trAccess .read s t e o fun x =>
    .done x.st ((List.range 1024).foldl (fun u k =>
      u.setTr o.d.toNat (k / 32) (k % 32) (BitVec.ofNat 32 (readNow x.pages x.st t (e.who t) (trAddr e o k) .read (trSize o)))) t)

/-- TST (R245). -/
def effTst (s : State) (t : Thread) (e : QEntry) (o : XOps) : Eff :=
  trAccess .write s t e o fun x =>
    let n := trSize o
    let run := (List.range 1024).map fun k => (trAddr e o k, (t.tr o.d.toNat (k / 32) (k % 32)).toNat % 2 ^ (8 * n))
    storeAll x (e.who t) n run t t 0

end
end Sys2Proof.Machine
end

