-- ==== Sys2Proof/Machine/Plural.lean ====
section
/-! DEFINITION. Plural stores and loads over a bank set, the carry of a restarted load and the reduction tree
(spec/12_banks_and_plural_addressing.md R295 to R312). -/

namespace Sys2Proof.Machine
open Sys2Proof

noncomputable section

/-! ### Bank sets and plural addresses -/

/-- The bank-set register an entry captured (R295, R297). -/
def QEntry.setBase (e : QEntry) : BitVec 64 := e.image.extractLsb' 64 64
def QEntry.setLog (e : QEntry) : Nat := (e.image.extractLsb' 16 6).toNat
def QEntry.setCount (e : QEntry) : Nat := (e.image.extractLsb' 0 12).toNat
/-- The captured TREE and ADDR (R309, R442). -/
def QEntry.tree (e : QEntry) : Nat := (e.image.extractLsb' 128 64).toNat
def QEntry.apexAddr (e : QEntry) : BitVec 64 := e.image.extractLsb' 192 64

/-- The address of element `k` at set index `i` (R298). -/
def pluralAddr (e : QEntry) (s i k : Nat) : BitVec 64 :=
  e.setBase + BitVec.ofNat 64 (i * 2 ^ e.setLog) + e.gb + BitVec.ofNat 64 (k * s)

/-- Active set indices from VSTART on (R299). -/
def pluralIdx (t : Thread) (e : QEntry) (o : MOps) : List Nat :=
  (elems e.vstart.toNat e.setCount).filter fun i => t.active (mGov o) i

/-- The accesses of the indices `is` (R300). -/
def pluralWants (e : QEntry) (s : Nat) (kind : Acc1) (is : List Nat) : List Want :=
  (is.map fun i => (List.range e.vl.toNat).map fun k => (⟨i, pluralAddr e s i k, s, kind, false⟩ : Want)).flatten

/-! ### STP (R303) -/

/-- Store the converted elements at one index. -/
def stpAt (ps : List PageAt) (w : Who) (e : QEntry) (sz i : Nat) : List (Nat × Nat) → State → Thread → StoreOut
  | [], s, t => .ok s t
  | (k, v) :: r, s, t =>
    match storeNow ps e.holdsAs s t w (pluralAddr e sz i k) sz v false with
    | .ok s t => stpAt ps w e sz i r s t
    | x => x

/-- Store at the indices `is`; nothing is performed at one where a store fails (R300, R405). -/
def stpAll (ps : List PageAt) (w : Who) (e : QEntry) (sz : Nat) (vals : List (Nat × Nat)) : List Nat → State → Thread → Eff
  | [], s, t => .done s t
  | i :: is, s, t =>
    match stpAt ps w e sz i vals s t with
    | .ok s t => stpAll ps w e sz vals is s t
    | .wait _ => .hold s t i
    | .bad _ tr => .fault s t i tr

/-- STP: every index up to the limit, below the lowest failing one. -/
def effStp (s : State) (t : Thread) (e : QEntry) (o : MOps) (limit : Nat) : Eff :=
  if e.setCount ≤ e.vstart.toNat then .done s t else
  let f := MFmt.ofCode o.f.toNat
  let is := pluralIdx t e o
  let x := runAhead s t e (pluralWants e f.bytes .write is)
  if x.waits then .hold x.st t e.vstart.toNat else
  let perf := is.filter (· < x.stop limit)
  let conv := (List.range e.vl.toNat).map fun k =>
    storeConv f (ewBits e.vtype) (t.el (e.opnd o.d6) k) 0 none e.mode (e.hash k)
  let u := if perf.isEmpty then t else t.raise (conv.foldl (fun a r => a ||| r.fl) 0)
  (stpAll x.pages (e.who t) e f.bytes ((List.range e.vl.toNat).zip (conv.map fun r => r.bits)) perf x.st u).after e x limit

/-! ### LDP (R304 to R307) -/

/-- The combining operators. -/
inductive LOp where
  | sum | max | min | maxsum | and | or | xor
  deriving DecidableEq, Repr

/-- A running partial value of one element, or of one pair. -/
inductive Carry where
  | num (v : Nat)
  | acc (x : Acc)
  /-- pending pairs, and whether the carry a restart read was poisoned -/
  | pairs (ps : List MsPair) (bad : Bool)
  deriving DecidableEq, Repr

def MFmt.fmt : MFmt → Option Fmt
  | .fp f => some f
  | _ => none

/-- The group sizes of the tree (R311). -/
def treeLevels (tree : Nat) : List Nat :=
  if bitAt tree 3 then (List.range 11).map fun j => 2 ^ (j + 1)
  else (if bitAt tree 0 then [16] else []) ++ (if bitAt tree 1 then [64] else [])
    ++ (if bitAt tree 2 then [256] else []) ++ [2048]

/-- The identity of an operator (R306). -/
def LOp.ident (op : LOp) (f : MFmt) (signed : Bool) (ew t : Nat) : Carry :=
  match op, f.fmt with
  | .sum, some _ => .acc Acc.zero
  | .max, some f => .num (f.signBit + f.infBits)
  | .min, some f => .num f.infBits
  | .maxsum, _ => .pairs (List.replicate t MsPair.unit) false
  | .max, none => .num (if signed then 2 ^ (ew - 1) else 0)
  | .min, none => .num (if signed then 2 ^ (ew - 1) - 1 else 2 ^ ew - 1)
  | .and, _ => .num (2 ^ ew - 1)
  | _, _ => .num 0

/-- Fold completed levels upward after index `i` (R311). -/
def foldLevels (i cnt : Nat) : List Nat → List MsPair → List MsPair × Flg
  | g :: gs, p :: q :: ps =>
    if (i + 1) % g = 0 ∨ i + 1 = cnt then
      let r := msCombine q p
      let up := foldLevels i cnt gs (r.1 :: ps)
      (MsPair.unit :: up.1, r.2 ||| up.2)
    else (p :: q :: ps, 0)
  | _, ps => (ps, 0)

/-- Combine the values of one index into a carry; `vals` are none at an inactive index (R306, R311). -/
def Carry.step (op : LOp) (f : MFmt) (signed : Bool) (ew i cnt : Nat) (gs : List Nat) (vals : Option (List Nat)) :
    Carry → Carry × Flg
  | .pairs ps bad =>
    let v : MsPair := match vals with
      | some [m, s] => ⟨m, s⟩
      | _ => MsPair.unit
    match ps with
    | p :: r =>
      let c := msCombine p v
      let u := foldLevels i cnt gs (c.1 :: r)
      (.pairs u.1 bad, c.2 ||| u.2)
    | [] => (.pairs [] bad, 0)
  | .acc x =>
    match vals, f.fmt with
    | some (v :: _), some fm => (.acc (x.addVal (decodeF fm v) false), flIf (isSNaNBits fm v) flNV)
    | _, _ => (.acc x, 0)
  | .num c =>
    match vals with
    | some (v :: _) =>
      match f.fmt with
      | some fm =>
        let r := fMinMax fm (op == .max) c v
        (.num r.bits, r.fl)
      | none =>
        let lt (a b : Nat) : Bool := readInt signed ew a < readInt signed ew b
        let n := match op with
          | .sum => (c + v) % 2 ^ ew
          | .max => if lt c v then v else c
          | .min => if lt v c then v else c
          | .and => c &&& v
          | .or => c ||| v
          | .xor => c ^^^ v
          | .maxsum => c
        (.num n, 0)
    | _ => (.num c, 0)

/-- Bytes written into vector storage, whatever the element width. -/
def Thread.putRaw (t : Thread) : Nat → List (BitVec 8) → Thread
  | _, [] => t
  | a, b :: bs => ({ t.raiseHw a 1 with vreg := Cells.set 0 t.vreg a b } : Thread).putRaw (a + 1) bs

/-- Bytes of the carry of one element or pair (R305). -/
def Carry.bytes (ew : Nat) : Carry → List (BitVec 8)
  | .num v => bytesLE (ew / 8) v
  | .acc x => x.image
  | .pairs ps _ => (((ps.map fun (p : MsPair) => bytesLE 4 p.m ++ bytesLE 4 p.s).flatten) ++ List.replicate 96 0).take 96

/-- Write carries to the destination group; a carry that was poisoned stays as it stands (R305, R306). -/
def putCarries (t : Thread) (base ew : Nat) : List Carry → Thread
  | [] => t
  | c :: cs =>
    let bs := c.bytes ew
    let t := match c with
      | .pairs ps true => t.putRaw base (bs.take (8 * ps.length))
      | _ => t.putRaw base bs
    putCarries t (base + bs.length) ew cs

/-- Read the carries that a restart finds (R305, R306). -/
def getCarries (t : Thread) (base : Nat) (k0 : Carry) (ew n : Nat) : List Carry :=
  (List.range n).map fun k =>
    match k0 with
    | .num _ => .num (ofBytesLE (Cells.getRange 0 t.vreg (base + k * (ew / 8)) (ew / 8)))
    | .acc _ => .acc (Acc.ofImage (Cells.getRange 0 t.vreg (base + 96 * k) 96))
    | .pairs ps _ =>
      let bs := Cells.getRange 0 t.vreg (base + 96 * k) 96
      let w (j : Nat) : Nat := ofBytesLE ((bs.drop (4 * j)).take 4)
      .pairs ((List.range ps.length).map fun j => ⟨w (2 * j), w (2 * j + 1)⟩)
        ((bs.drop (8 * ps.length)).any (· != 0))

/-- A carry whose extraction raises POISON (R306). -/
def Carry.bad : Carry → Bool
  | .acc x => x.poison
  | .pairs _ b => b
  | .num _ => false

/-- The result elements of a finished carry, with their flags (R306, R311). -/
def Carry.finish (f : MFmt) (e : QEntry) (k : Nat) : Carry → List Nat × Flg
  | .num v => ([v], 0)
  | .acc x =>
    match f.fmt with
    | some fm => let r := x.extract fm e.mode (e.hash k); ([r.bits], r.fl)
    | none => ([0], 0)
  | .pairs ps _ => let p : MsPair := ps.getLastD MsPair.unit; ([p.m, p.s], 0)

/-- Values of one index, per element or pair. -/
def ldpVals (x : Ahead) (t : Thread) (e : QEntry) (sz i per k : Nat) : List Nat :=
  (List.range per).map fun j => readNow x.pages x.st t (e.who t) (pluralAddr e sz i (per * k + j)) .read sz

/-- Fold the indices `is` into the carries. -/
def ldpFold (x : Ahead) (t : Thread) (e : QEntry) (o : MOps) (op : LOp) (f : MFmt) (signed : Bool) (ew per : Nat)
    (gs : List Nat) (cs : List Carry) (is : List Nat) : List Carry × Flg :=
  is.foldl (fun acc i =>
    let act := t.active (mGov o) i
    let r := (List.range cs.length).map fun k =>
      (acc.1.getD k (.num 0)).step op f signed ew i e.setCount gs (if act then some (ldpVals x t e f.bytes i per k) else none)
    (r.map Prod.fst, r.foldl (fun a x => a ||| x.2) acc.2)) (cs, 0)

/-- The end of an LDP that came to `u` from `t`. With APEX = 1 the result elements are stored at ADDR in ascending order, after vD is
written (R312). -/
def apexStore (x : Ahead) (t u : Thread) (e : QEntry) (sz : Nat) (vals : List Nat) : Eff :=
  if fld e.tree 4 2 = 1 then
    let run := (List.range vals.length).map fun k => (e.apexAddr + BitVec.ofNat 64 (k * sz), vals.getD k 0)
    storeAll x (e.who t) sz run t u e.vstart.toNat
  else .done x.st u

/-- Write the result elements and the tail, and zero the carry's bytes beyond the result (R306). -/
def ldpWrite (t : Thread) (e : QEntry) (o : MOps) (vals : List Nat) (carryBytes : Nat) : Thread :=
  let d := e.opnd o.d6
  let u := (List.range vals.length).foldl (fun u k => u.setEl d k (vals.getD k 0)) t
  let u := putTail u d (tailZero e.vtype) e.vl.toNat
  let res := vals.length * (d.ew / 8)
  if res < carryBytes then u.putRaw (d.byteAt t.splitV 0 + res) (List.replicate (carryBytes - res) 0) else u

/-- The apex pages are checked before any index is performed (R312). -/
def apexAhead (s : State) (t : Thread) (e : QEntry) (sz : Nat) : Ahead :=
  if fld e.tree 4 2 = 1 then
    ahead (e.who t) { st := s, pages := e.pages } ((List.range e.vl.toNat).map fun k =>
      ⟨0, e.apexAddr + BitVec.ofNat 64 (k * sz), sz, .write, false⟩)
  else { st := s, pages := e.pages }

/-- The run-ahead step of an LDP after that of its apex (R300, R312). -/
def ldpAhead (ap : Ahead) (t : Thread) (e : QEntry) (sz : Nat) (is : List Nat) : Ahead :=
  ahead (e.who t) { ap with bad := e.stopAt } (pluralWants e sz .read is)

/-- LDP with a combining operator, up to an index (R306, R311, R312). One whose carry is poisoned is not left between two indices: it
keeps VSTART and vD (R306). DEDUCED: VEMPTY is set wherever the mask admits no index of the set, as R306's text says, also where the LDP
runs with VSTART ≠ 0, for which its pseudocode sets nothing (log entry 111). -/
def effLdp (op : LOp) (s : State) (t : Thread) (e : QEntry) (o : MOps) (limit : Nat) : Eff :=
  if e.setCount ≤ e.vstart.toNat then .done s t else
  let f := MFmt.ofCode o.f.toNat
  let ew := ewBits e.vtype
  let vs := e.vstart.toNat
  let ap := apexAhead s t e f.bytes
  if ap.waits then .hold ap.st t vs else
  match ap.bad with
  | some (_, tr) => .fault ap.st t vs tr
  | none =>
    let x := ldpAhead ap t e f.bytes (pluralIdx t e o)
    if x.waits then .hold x.st t vs else
    let gs := treeLevels e.tree
    let signed := o.f.toNat < 4
    let per := if op = .maxsum then 2 else 1
    let k0 := op.ident f signed ew gs.length
    let n := e.vl.toNat / per
    let base := (e.opnd o.d6).byteAt t.splitV 0
    let cs := if vs = 0 then List.replicate n k0 else getCarries t base k0 ew n
    let limit := if cs.any Carry.bad then e.setCount else limit
    let r := ldpFold x t e o op f signed ew per gs.dropLast cs (elems vs (x.stop limit))
    let u := t.raise r.2
    match x.badBelow limit with
    | some (i, tr) => .fault x.st (putCarries u base ew r.1) i tr
    | none =>
      if limit < e.setCount then .done x.st ((putCarries u base ew r.1).keepAhead e x)
      else if r.1.any Carry.bad then .fault x.st u vs { code := 12 }
      else
        let fin := (List.range n).map fun k => (r.1.getD k k0).finish f e k
        let vals := (fin.map Prod.fst).flatten
        let u := u.raise (fin.foldl (fun a y => a ||| y.2) 0)
        let u := if (List.range e.setCount).any (t.active (mGov o)) then u else { u with vempty := true }
        let cb := match k0 with
          | .num _ => 0
          | _ => 96 * n
        apexStore x t (ldpWrite u e o vals cb) e f.bytes vals

/-- LDP.first (R307). -/
def effLdpFirst (s : State) (t : Thread) (e : QEntry) (o : MOps) : Eff :=
  if e.setCount ≤ e.vstart.toNat then .done s t else
  let sz := (MFmt.ofCode o.f.toNat).bytes
  let vs := e.vstart.toNat
  let ap := apexAhead s t e sz
  if ap.waits then .hold ap.st t vs else
  match ap.bad with
  | some (_, tr) => .fault ap.st t vs tr
  | none =>
    let is := (pluralIdx t e o).take 1
    let x := ldpAhead ap t e sz is
    if x.waits then .hold x.st t vs else
    match x.bad with
    | some (i, tr) => .fault x.st t i tr
    | none =>
      let vals := (List.range e.vl.toNat).map fun k =>
        match is with
        | i :: _ => readNow x.pages x.st t (e.who t) (pluralAddr e sz i k) .read sz
        | [] => 0
      let u := if is.isEmpty then { t with vempty := true } else t
      apexStore x t (ldpWrite u e o vals 0) e sz vals

end
end Sys2Proof.Machine
end

