-- ==== Sys2Proof/Machine/Engines.lean ====
section
/-! DEFINITION. Engine operations: tile moves from their descriptor to their completion (spec/11_scratchpads_and_vector_memory.md
R279 to R285) and chord runs from placement to their end (spec/12_banks_and_plural_addressing.md R315 to R322;
spec/14_policy_versions.md R346). -/

namespace Sys2Proof.Machine
open Sys2Proof

noncomputable section

/-! ### What both engines use -/

/-- Update a thread by launch and rank, placed or saved: engine operations go on while it is saved (R284, R321). -/
def State.updOwner (s : State) (part launch rank : Nat) (f : Thread → Thread) : State :=
  let own (t : Thread) : Bool := t.part == part && t.launch == launch && t.rank == rank
  { s with threads := s.threads.map fun t => if own t then f t else t,
           saved := s.saved.map fun v => if own v.thread then { v with thread := f v.thread } else v }

/-- Index of a token queue (R288). -/
def tokIdx (p c : Nat) : Nat := 4 * p + c

/-- The position tuple of position `n`, dimension 0 innermost (R250). -/
def tupleOf : List Nat → Nat → List Nat
  | [], _ => []
  | b :: bs, n => n % b :: tupleOf bs (n / b)

/-- Sum of index times stride over the dimensions. -/
def dotStride : List Nat → List Int → Int
  | i :: is, d :: ds => Int.ofNat i * d + dotStride is ds
  | _, _ => 0

/-- What a completion object's store came to. -/
inductive Wrote where
  | done (s : State)
  /-- a tile arrives, or the page is marked for migration -/
  | wait (s : State)
  deriving DecidableEq, Repr

/-- A completion object's store, an 8-byte word at home; one that is not writable is lost. Of a move, a page marked for migration is
waited for (R282, R283, R320; log entry 101). -/
def writeObject (s : State) (w : Who) (va : BitVec 64) (v : BitVec 64) (move : Bool) : Wrote :=
  match locate s w va .write false with
  | (.at l, s) => .done (storeHome s w.part l 8 v.toNat)
  | (.wait, s) => .wait s
  | (.bad tr, s) => if move && tr.code == 6 then .wait s else .done s

/-! ### Tile moves -/

def moveBytes : Nat := 192

/-- A descriptor from its bytes (R280). -/
def parseMove (bs : List (BitVec 8)) (frm : BitVec 3) : MoveDesc :=
  let w (k n : Nat) : Nat := ofBytesLE ((bs.drop k).take n)
  { src := .ofNat 64 (w 0 8), dst := .ofNat 64 (w 8 8), scale := .ofNat 64 (w 16 8),
    sstrides := (List.range 6).map fun j => .ofNat 64 (w (24 + 8 * j) 8),
    dstrides := (List.range 6).map fun j => .ofNat 64 (w (72 + 8 * j) 8),
    bounds := (List.range 6).map fun j => .ofNat 32 (w (120 + 4 * j) 4),
    ndim := w 144 1, sfmt := w 145 1, dfmt := w 146 1,
    rm := if w 147 1 = 7 then frm.toNat else w 147 1, sc := w 148 1, codebook := .ofNat 256 (w 160 32) }

/-- The length of a move (R250). -/
def MoveDesc.len (d : MoveDesc) : Nat := ((d.bounds.take d.ndim).map BitVec.toNat).foldl (· * ·) 1

/-- The width in bits of a format code below 14, c4 counted as 4 (R55). -/
def fmtBits (c : Nat) : Nat := if c = 13 then 4 else 8 * (MFmt.ofCode c).bytes

/-- The limits of R281 on a descriptor and its bytes; a format code above 15 is refused as 14 and 15 are (log entry 98). -/
def moveOk (d : MoveDesc) (bs : List (BitVec 8)) : Bool :=
  let w (k n : Nat) : Nat := ofBytesLE ((bs.drop k).take n)
  let unused (k sz : Nat) : Bool := (List.range 6).all fun j => j < d.ndim || w (k + sz * j) sz == 0
  let scalable (c : Nat) : Bool := c == 11 || c == 12 || c == 13
  1 ≤ d.ndim && d.ndim ≤ 6 && unused 24 8 && unused 72 8 && unused 120 4 && d.sfmt < 14 && d.dfmt < 14
    && (if d.sfmt < 8 ∧ d.dfmt < 8 then fmtBits d.sfmt == fmtBits d.dfmt else 8 ≤ d.sfmt && 8 ≤ d.dfmt)
    && (w 147 1 < 5 || w 147 1 == 7) && d.sc < 4 && d.sc != 3 && (d.sc != 1 || scalable d.sfmt)
    && (d.sc != 2 || scalable d.dfmt) && w 149 11 == 0 && d.len < 2 ^ 40

/-- The address and, on a c4 side, the nibble of position `n` (R280). -/
def MoveDesc.place (d : MoveDesc) (src : Bool) (n : Nat) : BitVec 64 × Nat :=
  let idx := tupleOf ((d.bounds.take d.ndim).map BitVec.toNat) n
  let k := dotStride idx ((if src then d.sstrides else d.dstrides).map BitVec.toInt)
  let base := if src then d.src else d.dst
  if (if src then d.sfmt else d.dfmt) = 13 then (base + BitVec.ofInt 64 (k / 2), (k % 2).toNat)
  else (base + BitVec.ofInt 64 k, 0)

/-- The converted element of a move: the destination's pattern and flags (R280, R282). -/
def moveConv (d : MoveDesc) (raw : Nat) (sc : ScaleV) (h : Nat) : Res :=
  let mode := Rm.ofCode d.rm
  let sf := MFmt.ofCode d.sfmt
  let df := MFmt.ofCode d.dfmt
  if d.sfmt = d.dfmt ∧ d.sc = 0 ∨ d.sfmt < 8 then ⟨raw, 0⟩
  else
    let x : Fmt × Nat := match sf with
      | .fp f => (f, raw)
      | _ => (.bf16, cbNum d.codebook raw)
    if d.sc = 1 then
      match df with
      | .c4 =>
        let v := match sc with
          | some (some k) => (decodeF x.1 x.2).scale k
          | some none => Val.nan
          | none => decodeF x.1 x.2
        let r := cbEncode d.codebook v
        ⟨r.1, r.2⟩
      | .fp dst => loadTo sf dst raw d.codebook sc mode h
      | _ => ⟨raw, 0⟩
    else
      match sf, df, sc with
      | .c4, .fp dst, none => loadTo .c4 dst raw d.codebook none mode h
      | _, _, _ => storeFrom df x.1 x.2 d.codebook sc mode h

/-- The cause code of a fault of a move (R282). -/
def moveCause (tr : Trap) : Nat :=
  match tr.code with
  | 2 => 2
  | 5 => 3
  | 10 => 4
  | 9 => 5
  | 7 => 6
  | _ => 1

/-- One position of a move. -/
inductive MoveStep where
  | next (s : State) (fl : Flg)
  /-- a tile arrives, or a page is marked for migration -/
  | wait (s : State)
  | stop (s : State) (cause : Nat)
  deriving DecidableEq, Repr

/-- A move accesses memory as its thread did at its start, from the slot it then had (R282, R284; log entry 100). -/
def Move.who (m : Move) : Who := ⟨m.slot, m.part, m.sup, m.aspace, m.ver⟩

/-- Locate one side of a position. -/
def moveLocate (s : State) (m : Move) (va : BitVec 64) (bytes : Nat) (k : Acc1) : Except MoveStep (Loc × State) :=
  if !aligned va bytes then .error (.stop s 2)
  else match locate s m.who va k false with
    | (.at l, s) => .ok (l, s)
    | (.wait, s) => .error (.wait s)
    | (.bad tr, s) => .error (if tr.code = 6 then .wait s else .stop s (moveCause tr))

/-- Position `n`: both sides are translated, then the element is read, converted and written (R282); a fault on the scale byte ends the move
there as one of theirs does (log entry 99). -/
def moveStep (s : State) (m : Move) (n : Nat) : MoveStep :=
  let d := m.desc
  let sb := (MFmt.ofCode d.sfmt).bytes
  let db := (MFmt.ofCode d.dfmt).bytes
  let a := d.place true n
  let b := d.place false n
  match moveLocate s m a.1 sb .read with
  | .error r => r
  | .ok (_, s) =>
    match moveLocate s m b.1 db .write with
    | .error r => r
    | .ok (lb, s) =>
      let sc : Except MoveStep (ScaleV × State) :=
        if d.sc = 0 then .ok (none, s)
        else match moveLocate s m (d.scale + BitVec.ofNat 64 (n / 32)) 1 .read with
          | .error r => .error r
          | .ok (l, s) => .ok (some (scaleOf (loadHome s l 1)), s)
      match sc with
      | .error r => r
      | .ok (sc, s) =>
        match moveLocate s m a.1 sb .read with
        | .error r => r
        | .ok (la, s) =>
          let raw := loadHome s la sb
          let raw := if d.sfmt = 13 then fld raw (4 * a.2) 4 else raw
          let r := moveConv d raw sc (srHash m.seed (n % 2 ^ 32) (0x60000000 + n / 2 ^ 32 % 2 ^ 8))
          let v := if d.dfmt = 13 then
              let old := loadHome s lb 1
              if b.2 = 0 then old / 16 * 16 + r.bits % 16 else old % 16 + r.bits % 16 * 16
            else r.bits
          .next (storeHome s m.part lb db v) r.fl

/-- Run positions from `n` on; the flags gathered, where it stopped, and why. -/
def moveRun (m : Move) : Nat → Nat → Flg → State → MoveStep × Nat × Flg
  | 0, n, fl, s => (.next s 0, n, fl)
  | r + 1, n, fl, s =>
    match moveStep s m n with
    | .next s f => moveRun m r (n + 1) (fl ||| f) s
    | x => (x, n, fl)

/-- The completion word (R283). -/
def moveWord (m : Move) (pos : Nat) (fl : Nat) (status : Nat) : BitVec 64 :=
  BitVec.ofNat 64 (m.seq.toNat % 256 * 2 ^ 56 + pos % 2 ^ 40 * 2 ^ 16 + fl % 256 * 2 ^ 8 + status)

/-- Write back an outstanding move in its place of the engine's rotation. -/
def State.setMove (s : State) (m : Move) : State := { s with moves := s.moves.map fun (x : Move) => if x.id = m.id then m else x }

/-- Write back a move that has had its turn: it goes behind the others (R284). -/
def State.requeueMove (s : State) (m : Move) : State := { s with moves := (s.moves.filter fun x => x.id != m.id) ++ [m] }

/-- Write the completion object and push the token of an ended move; while the write waits the move stays (R283, R290). -/
def endMove (s : State) (m : Move) (word : BitVec 64) : State :=
  let gone (s : State) : State :=
    let s := { s with moves := s.moves.filter fun x => x.id != m.id }
    match m.push with
    | some c => s.updOwner m.part m.launch m.rank fun t => t.putTok (tokIdx 2 c.toNat)
    | none => s
  match m.obj with
  | none => gone s
  | some va =>
    match writeObject s m.who va word true with
    | .done s => gone s
    | .wait s => s.setMove { m with fin := some word }

/-- The 4-bit units that a position writes, and those of a turn of 4 KiB (R284; log entry 86). -/
def Move.unit (m : Move) : Nat := fmtBits m.desc.dfmt / 4
def turnUnits : Nat := 8192

/-- The move that the engine of a facet is at: the first of its outstanding moves that has not ended (R284). -/
def engineMove (s : State) (f : Nat) : Option Move := s.moves.find? fun m => m.slot / Config.slotsPerFacet == f && m.fin.isNone

/-- A move goes on by at most `n` positions of its present turn, where the engine is at it. At its end it is completed. When its turn is
over, or it waits, the engine goes on to the next (R282 to R284). -/
def runMove (s : State) (m : Move) (n : Nat) : State :=
  match m.fin with
  | some w => endMove s m w
  | none =>
    if (engineMove s (m.slot / Config.slotsPerFacet)).map (fun x => x.id) ≠ some m.id then s
    else
      let left := m.desc.len - m.pos
      let turn := (turnUnits - m.used + m.unit - 1) / m.unit
      match moveRun m (min n (min turn left)) m.pos m.flags s with
      | (.stop s c, k, _) => endMove s m (moveWord m k c 2)
      | (.wait s, k, fl) => s.requeueMove { m with pos := k, flags := fl, used := 0 }
      | (.next s _, k, fl) =>
        if k = m.desc.len then endMove s m (moveWord m k fl.toNat 1)
        else
          let used := m.used + (k - m.pos) * m.unit
          if turnUnits ≤ used then s.requeueMove { m with pos := k, flags := fl, used := 0 }
          else s.setMove { m with pos := k, flags := fl, used := used }

/-! ### Chords -/

/-- The first byte of a global bank (R293, R356). -/
def bankBase (s : State) (g : Nat) : Nat := s.hdmbase.toNat + 2 ^ 40 + g * 2 ^ 23

/-- A stream descriptor of a parameter block (R315). -/
structure ChStream where
  off : Nat
  str : List Int
  bnd : List Nat
  fmt : Nat
  en : Nat
  rest : Nat
  deriving DecidableEq, Repr

/-- A parameter block (R315). -/
structure ChBlock where
  s : List ChStream
  scaleOff : Nat
  mul : Nat
  red : Nat
  act : Nat
  wb : Nat
  rm : Nat
  rest : Nat
  rlen : Nat
  ka : Nat
  kc : Nat
  kl : Nat
  kh : Nat
  cb : BitVec 256
  rest2 : Nat
  deriving DecidableEq, Repr

def parseChStream (bs : List (BitVec 8)) : ChStream :=
  let w (k n : Nat) : Nat := ofBytesLE ((bs.drop k).take n)
  ⟨w 0 4, (List.range 3).map fun j => toSigned 32 (w (4 + 4 * j) 4), (List.range 3).map fun j => w (16 + 4 * j) 4,
    w 28 1, w 29 1, w 30 2⟩

def parseBlock (bs : List (BitVec 8)) : ChBlock :=
  let w (k n : Nat) : Nat := ofBytesLE ((bs.drop k).take n)
  { s := (List.range 4).map fun j => parseChStream (bs.drop (32 * j)), scaleOff := w 128 4, mul := w 132 1, red := w 133 1,
    act := w 134 1, wb := w 135 1, rm := w 136 1, rest := w 137 3, rlen := w 140 4, ka := w 144 4, kc := w 148 4,
    kl := w 152 4, kh := w 156 4, cb := .ofNat 256 (w 160 32), rest2 := w 192 64 }

def ChBlock.st (b : ChBlock) (j : Nat) : ChStream := b.s.getD j ⟨0, [], [], 0, 0, 0⟩
def ChStream.len (x : ChStream) : Nat := x.bnd.foldl (· * ·) 1

/-- The within-bank offset, and the nibble on a c4 stream, of position `n` (R315, R316). -/
def ChStream.place (x : ChStream) (n : Nat) : Int × Nat :=
  let k := dotStride (tupleOf x.bnd n) x.str
  if x.fmt = 13 then (Int.ofNat x.off + k / 2, (k % 2).toNat) else (Int.ofNat x.off + k, 0)

def ChBlock.ma (b : ChBlock) : Nat := fld b.mul 0 2
def ChBlock.mc (b : ChBlock) : Nat := fld b.mul 2 2
def ChBlock.scaled (b : ChBlock) : Bool := b.scaleOff != 0xFFFFFFFF
def ChBlock.outs (b : ChBlock) : Nat := if b.red = 0 then (b.st 0).len else (b.st 0).len / b.rlen

/-- Cause 1 of R316; with RED ≠ 0, an RLEN outside 1 to 2^24 too (R315; log entry 107). -/
def ChBlock.bad (b : ChBlock) : Bool :=
  let s0 := b.st 0
  let s1 := b.st 1
  let s2 := b.st 2
  let s3 := b.st 3
  let plain (c : Nat) : Bool := c == 8 || c == 9 || c == 10
  s0.en != 1 || (b.s.any fun x => 1 < x.en || x.rest != 0) || b.rest != 0 || b.rest2 != 0
    || 15 < b.mul || b.ma == 3 || b.mc == 3 || 2 < b.red || 5 < b.act || 1 < b.wb || !(b.rm < 6 || b.rm == 7)
    || (b.red != 0 && !(1 ≤ b.rlen && b.rlen ≤ 2 ^ 24 && s0.len % b.rlen == 0))
    || (b.act == 3 && (isNaNBits .f32 b.kl || isNaNBits .f32 b.kh || (decodeF .f32 b.kh).lt (decodeF .f32 b.kl)))
    || (s1.en == 1 && (s1.len != s0.len || !plain s1.fmt)) || (s2.en == 1 && (s2.len != s0.len || !plain s2.fmt))
    || (b.wb == 1 && (s3.en == 0 || s3.len != b.outs)) || !(8 ≤ s0.fmt && s0.fmt ≤ 13)
    || (s3.en == 1 && !(8 ≤ s3.fmt && s3.fmt ≤ 12)) || (b.scaled && !(11 ≤ s0.fmt && s0.fmt ≤ 13))
    || (s1.en == 1 && b.ma != 2) || (s2.en == 1 && b.mc != 2) || (b.ma == 2 && s1.en != 1) || (b.mc == 2 && s2.en != 1)
    || (b.ma == 0 && b.mc != 0)

/-- An offset lies in the bank. -/
def inBank (x : Int) : Bool := 0 ≤ x && x < 2 ^ 23

/-- Causes 2 and 3 of R316 over the streams that are enabled. -/
def ChBlock.outside (b : ChBlock) : Bool :=
  (b.s.any fun x => x.en == 1 && (List.range x.len).any fun n => !inBank (x.place n).1)
    || (b.scaled && !(b.scaleOff + ((b.st 0).len - 1) / 32 < 2 ^ 23) && (b.st 0).len != 0)

def ChBlock.misaligned (b : ChBlock) : Bool :=
  b.s.any fun x => x.en == 1 && (List.range x.len).any fun n =>
    (x.place n).1 % Int.ofNat ((MFmt.ofCode x.fmt).bytes) != 0

/-- Cause 4: a write-back position lies in a slot of a valid region that is not its staging slot (R346). -/
def publishedAt (s : State) (pa : Nat) : Bool :=
  match s.vtab with
  | none => false
  | some b => s.vgiven.any fun g => (List.range 4).any fun j =>
      (readRegion s.mem b.toNat g.num).staging != some j &&
        match g.copyAt (some j) 0 with
        | some a => a ≤ pa && pa < a + g.size.toNat
        | none => false

def ChBlock.writesPublished (b : ChBlock) (s : State) (bank : Nat) : Bool :=
  b.wb == 1 && (List.range (b.st 3).len).any fun n => publishedAt s (bankBase s bank + ((b.st 3).place n).1.toNat)

/-- The cause a block fails with, the lowest where several hold (log entry 107); none when the run passes (R316, R346). -/
def ChBlock.cause (b : ChBlock) (s : State) (bank : Nat) : Option Nat :=
  if b.bad then some 1 else if b.outside then some 2 else if b.misaligned then some 3
  else if b.writesPublished s bank then some 4 else none

/-- Read position `n` of a stream as an exact f32 pattern (R317). -/
def chRead (m : Memory) (base : Nat) (b : ChBlock) (x : ChStream) (n : Nat) : Nat :=
  let p := x.place n
  let f := MFmt.ofCode x.fmt
  let raw := m.readN (base + p.1.toNat) f.bytes
  match f with
  | .fp .f32 => raw
  | f => (loadTo f .f32 (if x.fmt = 13 then fld raw (4 * p.2) 4 else raw) b.cb none .rne 0).bits

/-- The difference of ACT 5, exact on finite values (R317). -/
def chExpSub (v kl : Nat) : Res :=
  let a := decodeF .f32 v
  let k := decodeF .f32 kl
  let fl := snanFl .f32 [v, kl]
  let d := a.add k.neg .rne
  let r := fExp d.1
  ⟨r.bits, r.fl ||| fl ||| flIf d.2 flNV⟩

/-- The activation stage (R317). ACT 0 to 2 set no flag for a NaN `v`, signalling or not (log entry 106). -/
def chAct (b : ChBlock) (md : Rm) (h v : Nat) : Res :=
  let x := decodeF .f32 v
  if x.isNaN then
    ⟨Fmt.f32.canon, if 3 ≤ b.act then snanFl .f32 (if b.act = 5 then [v, b.kl] else [v]) else 0⟩
  else
    let neg := x.lt (.fin false 0 1)
    match b.act with
    | 0 => ⟨v, 0⟩
    | 1 => ⟨if neg then 0 else v, 0⟩
    | 2 => if neg then fMul .f32 b.kl v md h else ⟨v, 0⟩
    | 3 =>
      let lo := fMinMax .f32 true v b.kl
      let hi := fMinMax .f32 false lo.bits b.kh
      ⟨hi.bits, lo.fl ||| hi.fl⟩
    | 4 => fExp x
    | _ => chExpSub v b.kl

/-- The run's state: memory, the reduction's carry, the outputs emitted, the flags. -/
structure ChRun where
  mem : Memory
  /-- what the last output writes, performed before anything more is read (R317, R322) -/
  held : Option (Nat × List (BitVec 8)) := none
  acc : Acc := Acc.zero
  mx : Nat := Fmt.f32.canon
  j : Nat := 0
  fl : Flg := 0
  deriving DecidableEq, Repr

/-- The write of the last output is performed. -/
def ChRun.settle (r : ChRun) : ChRun :=
  match r.held with
  | some x => { r with mem := r.mem.writeBytes x.1 x.2, held := none }
  | none => r

/-- Emit one output (R317): its write stands from here on, so that a store of another agent may fall between the reads of a position and its
write (R322). -/
def ChRun.emit (r : ChRun) (b : ChBlock) (base : Nat) (md : Rm) (h : Nat → Nat) (v : Nat) : ChRun :=
  let w := chAct b md (h r.j) v
  let r := { r with fl := r.fl ||| w.fl, j := r.j + 1 }
  if b.wb = 1 then
    let x := b.st 3
    let f := MFmt.ofCode x.fmt
    let o := match f with
      | .fp .f32 => (⟨w.bits, 0⟩ : Res)
      | f => storeFrom f .f32 w.bits b.cb none md (h (r.j - 1))
    { r with held := some (base + (x.place (r.j - 1)).1.toNat, bytesLE f.bytes o.bits), fl := r.fl ||| o.fl }
  else r

/-- Position `n` of the pipeline (R317). -/
def ChRun.step (b : ChBlock) (base : Nat) (md : Rm) (h : Nat → Nat) (r : ChRun) (n : Nat) : ChRun :=
  let r := r.settle
  let x0 := chRead r.mem base b (b.st 0) n
  let x : Res := if b.scaled then
      match scaleOf (r.mem.readN (base + b.scaleOff + n / 32) 1) with
      | none => ⟨Fmt.f32.canon, 0⟩
      | some k => roundTo ((decodeF .f32 x0).scale k) .f32 md (h n)
    else ⟨x0, 0⟩
  let y : Res :=
    if b.ma = 0 then ⟨x.bits, 0⟩
    else
      let a := if b.ma = 1 then b.ka else chRead r.mem base b (b.st 1) n
      if b.mc = 0 then fMul .f32 a x.bits md (h n)
      else fFma .f32 false a x.bits (if b.mc = 1 then b.kc else chRead r.mem base b (b.st 2) n) md (h n)
  let r := { r with fl := r.fl ||| x.fl ||| y.fl }
  let last := (n + 1) % b.rlen = 0
  match b.red with
  | 0 => r.emit b base md h y.bits
  | 1 =>
    let r := { r with acc := r.acc.addVal (decodeF .f32 y.bits) false, fl := r.fl ||| flIf (isSNaNBits .f32 y.bits) flNV }
    if last then
      let o := r.acc.extract .f32 md (h r.j)
      { ({ r with fl := r.fl ||| o.fl } : ChRun).emit b base md h o.bits with acc := Acc.zero }
    else r
  | _ =>
    let o := fMinMax .f32 true r.mx y.bits
    let r := { r with mx := o.bits, fl := r.fl ||| o.fl }
    if last then { r.emit b base md h r.mx with mx := Fmt.f32.canon } else r

/-- The mode and the hash of a run (R92, R317). -/
def ChordCmd.mode (c : ChordCmd) (b : ChBlock) : Rm := Rm.ofCode (if b.rm = 7 then c.frm.toNat else b.rm)
def ChordCmd.hash (c : ChordCmd) (e : Nat) : Nat := srHash c.seed e (0x20000000 + c.idx)

/-- A run under way as the pipeline's state, and back. -/
def ChordPart.run (p : ChordPart) (m : Memory) : ChRun := ⟨m, p.held, p.acc, p.mx, p.outs, p.fl⟩
def ChRun.part (r : ChRun) (block : List (BitVec 8)) (pos : Nat) : ChordPart := ⟨block, pos, r.acc, r.mx, r.j, r.fl, r.held⟩

/-- What a command comes to after at most `n` positions: memory, and the run as it stands, or its flags with the cause it fails with
(R316 to R318). -/
def chordPerform (s : State) (c : ChordCmd) (p : Option ChordPart) (n : Nat) : Memory × Except (Flg × Option Nat) ChordPart :=
  let base := bankBase s c.bank
  let p := p.getD (({ mem := s.mem } : ChRun).part (s.mem.readBytes (base + c.off) 256) 0)
  let b := parseBlock p.block
  match (if p.pos = 0 then b.cause s c.bank else none) with
  | some k => (s.mem, .error (0, some k))
  | none =>
    let m := min n ((b.st 0).len - p.pos)
    let r := ((List.range m).map (p.pos + ·)).foldl (ChRun.step b base (c.mode b) c.hash) (p.run s.mem)
    if p.pos + m = (b.st 0).len then (r.settle.mem, .error (r.fl, none)) else (r.mem, .ok (r.part p.block (p.pos + m)))

/-- The completion word of a CHRUN execution (R320). -/
def chrunWord (o : ChrunOp) : BitVec 64 :=
  let f := o.failed.getD (0, 0)
  BitVec.ofNat 64 (o.seq.toNat % 256 * 2 ^ 56 + f.1 % 2 ^ 12 * 2 ^ 44 + o.total % 2 ^ 12 * 2 ^ 32 + f.2 % 256 * 2 ^ 24
    + (if o.fin then 2 ^ 16 else 0) + o.flags.toNat * 2 ^ 8 + (if o.failed.isSome then 2 else 1))

def ChrunOp.who (o : ChrunOp) : Who := ⟨o.slot, o.part, o.sup, o.aspace, o.ver⟩

/-- The end of an execution whose runs have all ended: completion object and token (R320). -/
def endChrun (s : State) (o : ChrunOp) : State :=
  let gone (s : State) : State :=
    let s := { s with chruns := s.chruns.filter fun x => x.id != o.id }
    match o.push, o.fin with
    | some c, true => s.updOwner o.part o.launch o.rank fun t => t.putTok (tokIdx 0 c.toNat)
    | _, _ => s
  match o.obj with
  | none => gone s
  | some va =>
    match writeObject s o.who va (chrunWord o) false with
    | .done s => gone s
    | .wait s => s

/-- Note the end of one run in its execution and its thread (R318, R320, R321). -/
def noteRun (s : State) (c : ChordCmd) (fl : Flg) (cause : Option Nat) : State :=
  match s.chruns.find? fun o => o.id == c.op with
  | none => s
  | some o =>
    let failed := match cause, o.failed with
      | none, x => x
      | some k, none => some (c.idx, k)
      | some k, some x => if c.idx < x.1 then some (c.idx, k) else some x
    let o' := { o with ended := o.ended + 1, failed := failed, flags := o.flags ||| fl }
    let s := { s with chruns := s.chruns.map fun (x : ChrunOp) => if x.id = o.id then o' else x }
    let st : BitVec 8 := if cause.isSome then 2 else 1
    let s := s.updOwner o.part o.launch o.rank fun t =>
      { t with chOut := t.chOut - 1, chStatus := if t.chStatus < st then st else t.chStatus,
               chFlags := t.chFlags ||| (fl.setWidth 8) }
    if o'.ended = o'.total then endChrun s o' else s

def State.chord (s : State) (g : Nat) : Chord := (s.chords.find? fun c => c.bank == g).getD { bank := g }

/-- Write back a chord; an idle one is not listed. -/
def State.setChord (s : State) (c : Chord) : State :=
  let r := s.chords.filter fun x => x.bank != c.bank
  { s with chords := if c.running.isNone && c.queue.isEmpty then r else c :: r }

/-- Place a command: it takes a queue place (R319). -/
def placeCmd (s : State) (c : ChordCmd) : State :=
  let k := s.chord c.bank
  s.setChord { k with queue := k.queue ++ [c] }

/-- Where the block of an index lies: a bank of the thread's partition, or the fault (R319, R329). -/
def blockAt (s : State) (t : Thread) (e : QEntry) (va : BitVec 64) : Except Trap (Nat × Nat) × State :=
  let nab : Trap := { code := 8, addr := va, acc := 1 }
  let p := s.partOf t
  if !aligned va 256 then (.error { code := 2, addr := va, acc := 1 }, s)
  else if (aperture p t.slot va .read).isSome || (p.tileOf va).isSome then (.error nab, s)
  else match locate s (e.who t) va .read false with
    | (.at (.mem pa), s) =>
      match bankAt s pa with
      | some g => if p.hasBank g then (.ok (g, pa - bankBase s g), s) else (.error nab, s)
      | none => (.error nab, s)
    | (.at _, s) => (.error nab, s)
    | (.wait, s) => (.error nab, s)
    | (.bad tr, s) => (.error (if tr.code = 5 then nab else tr), s)

/-- The blocks of the active indices up to the first that fails. -/
def blocks (t : Thread) (e : QEntry) : List Nat → State → List (Nat × Nat × Nat) × Option (Nat × Trap) × State
  | [], s => ([], none, s)
  | i :: is, s =>
    let va := e.setBase + BitVec.ofNat 64 (i * 2 ^ e.setLog) + e.gb
    match blockAt s t e va with
    | (.ok (g, off), s) =>
      let r := blocks t e is s
      ((i, g, off) :: r.1, r.2)
    | (.error tr, s) => ([], some (i, tr), s)

/-- Place as many waiting commands of an execution as the free places of their chords admit, in order on each chord. -/
def placeSome : List ChordCmd → State → List ChordCmd × State
  | [], s => ([], s)
  | c :: cs, s =>
    if (s.chord c.bank).queue.length < 4 then placeSome cs (placeCmd s c)
    else
      let r := placeSome cs s
      (c :: r.1, r.2)

/-- The consumer peer an entry's push field names (R70, R290). -/
def pushPeer (t8 : BitVec 8) : Option (BitVec 3) := if t8.getLsbD 4 then some (t8.extractLsb' 5 3) else none

/-- Every command of the list is placed at once when its chord takes them (R319). -/
def chordsReady (s : State) (cmds : List ChordCmd) : Bool :=
  cmds.all fun c =>
    let n := (cmds.filter fun d => d.bank == c.bank).length
    (s.chord c.bank).queue.length + min n 4 ≤ 4

/-- One more than the highest set index of the commands. -/
def topPlaced (cmds : List ChordCmd) : Nat := cmds.foldl (fun n c => max n (c.idx + 1)) 0

/-- The end of the channel group of 16 indices that an execution has begun last, and whether every command below it is placed, so that a
pre-emption may stop the CHRUN there (R301). -/
def ChrunOp.groupEnd (o : ChrunOp) : Nat := (o.top + 15) / 16 * 16
def ChrunOp.atGroup (o : ChrunOp) : Bool := o.unplaced.all fun c => o.groupEnd ≤ c.idx

/-- An execution that is stopped there: it is the runs placed so far, and does not complete the instruction (R301, R320). -/
def ChrunOp.cut (o : ChrunOp) : ChrunOp := { o with unplaced := [], total := o.total - o.unplaced.length, fin := false }

/-- CHRUN at its start: it waits for queue places, places its commands and starts; a failing index stops it after the commands
below it (R319, R320). -/
def effChrun (s : State) (t : Thread) (e : QEntry) (o : MOps) : Eff :=
  if e.setCount ≤ e.vstart.toNat then .done s t else
  let is := (elems e.vstart.toNat e.setCount).filter fun i => t.active (govMask o.vm o.pre) i
  let r := blocks t e is s
  let s1 := r.2.2
  let op := s1.nextOp
  let cmds := r.1.map fun x => (⟨op, x.1, x.2.1, x.2.2, e.seed, e.frm⟩ : ChordCmd)
  if !chordsReady s1 cmds then .hold s1 t e.vstart.toNat else
  if cmds.isEmpty then
    match r.2.1 with
    | some (i, tr) => .fault s1 t i tr
    | none => .done s1 t
  else
    let pl : List ChordCmd × State := placeSome cmds { s1 with nextOp := op + 1 }
    let c : ChrunOp :=
      { id := op, slot := t.slot, launch := t.launch, rank := t.rank, part := t.part, sup := t.sup,
        aspace := t.aspace, ver := e.ver, seq := e.seq, obj := if o.d = 0 then none else some e.gc,
        push := pushPeer (preT8 o.pre), unplaced := pl.1, top := topPlaced (cmds.filter fun x => !pl.1.contains x),
        total := cmds.length, fin := r.2.1.isNone }
    let s2 : State := { pl.2 with chruns := pl.2.chruns ++ [c] }
    let u := { t with chOut := t.chOut + cmds.length }
    match r.2.1 with
    | some (i, tr) => .fault s2 u i tr
    | none => if pl.1.isEmpty then .done s2 u else .started s2 u

/-! ### TMOV at its start -/

/-- Moves outstanding on a facet (R284). -/
def movesOn (s : State) (f : Nat) : Nat := (s.moves.filter fun m => m.slot / Config.slotsPerFacet == f).length

/-- TMOV: reads and checks its descriptor, and hands the move to the engine (R280 to R284). -/
def effTmov (s : State) (t : Thread) (e : QEntry) (o : XOps) : Eff :=
  if 16 ≤ movesOn s t.facet then .hold s t 0
  else if !aligned e.ga 32 then .fault s t 0 { code := 2, addr := e.ga, acc := 1 }
  else
    let x := ahead (e.who t) { st := s } ((chunks e.ga moveBytes 8).map fun a => ⟨0, a, 8, .read, false⟩)
    if x.waits then .hold x.st t 0 else
    match x.bad with
    | some (_, tr) => .fault x.st t 0 tr
    | none =>
      let bs := ((chunks e.ga moveBytes 8).map fun a => bytesLE 8 (readNow x.pages x.st t (e.who t) a .read 8)).flatten
      let d := parseMove bs e.frm
      if !moveOk d bs then .fault x.st t 0 { code := 15, addr := e.ga, acc := 1 }
      else
        let m : Move :=
          { id := x.st.nextOp, slot := t.slot, launch := t.launch, rank := t.rank, part := t.part, sup := t.sup,
            aspace := t.aspace, ver := e.ver, seed := e.seed, mode := .ofNat 3 d.rm, desc := d,
            obj := if o.b = 0 then none else some e.gb, seq := e.seq, push := pushPeer (preT8 o.pre) }
        .done { x.st with nextOp := x.st.nextOp + 1, moves := x.st.moves ++ [m] } t

end
end Sys2Proof.Machine
end

