-- ==== Sys2Proof/Machine/Fabric.lean ====
section
/-! DEFINITION. Fabric: group and stream registers, plans, collectives, limb strings, messages
(spec/19_fabric_collectives_and_time.md R413 to R431). -/

namespace Sys2Proof.Machine
open Sys2Proof

noncomputable section

/-! ### Group and stream registers (R413 to R416) -/

/-- Fields of a group register image. -/
def grpSeq (r : BitVec 256) : BitVec 32 := r.extractLsb' 224 32
def grpSig (r : BitVec 256) : BitVec 32 := r.extractLsb' 192 32
def grpPlan (r : BitVec 256) : BitVec 32 := r.extractLsb' 160 32
def grpValid (r : BitVec 256) : Bool := r.getLsbD 131
def grpVc (r : BitVec 256) : BitVec 3 := r.extractLsb' 128 3
def grpCount (r : BitVec 256) : BitVec 32 := r.extractLsb' 96 32
def grpRank (r : BitVec 256) : BitVec 32 := r.extractLsb' 64 32
def grpComm (r : BitVec 256) : BitVec 64 := r.extractLsb' 0 64

/-- A group register from its fields. -/
def mkGroup (seq sig plan : BitVec 32) (vc : BitVec 3) (count rank : BitVec 32) (comm : BitVec 64) : BitVec 256 :=
  BitVec.ofNat 256 (comm.toNat + rank.toNat * 2 ^ 64 + count.toNat * 2 ^ 96 + vc.toNat * 2 ^ 128 + 2 ^ 131
    + plan.toNat * 2 ^ 160 + sig.toNat * 2 ^ 192 + seq.toNat * 2 ^ 224)

/-- The group signature (R415). -/
def groupSig (comm : BitVec 64) (count plan : BitVec 32) (vc : BitVec 3) : BitVec 32 :=
  let s := mix32 (comm.extractLsb' 0 32)
  let s := mix32 (s ^^^ comm.extractLsb' 32 32)
  let s := mix32 (s ^^^ count)
  let s := mix32 (s ^^^ plan)
  mix32 (s ^^^ vc.setWidth 32)

/-- Fields of a fabric stream register image. -/
def fsSig (r : BitVec 256) : BitVec 32 := r.extractLsb' 192 32
def fsMseq (r : BitVec 256) : BitVec 32 := r.extractLsb' 224 32
def fsPlan (r : BitVec 256) : BitVec 32 := r.extractLsb' 160 32
def fsDir (r : BitVec 256) : Bool := r.getLsbD 148
def fsValid (r : BitVec 256) : Bool := r.getLsbD 147
def fsVc (r : BitVec 256) : BitVec 3 := r.extractLsb' 144 3
def fsTag (r : BitVec 256) : BitVec 16 := r.extractLsb' 128 16
def fsPeer (r : BitVec 256) : BitVec 32 := r.extractLsb' 96 32
def fsRank (r : BitVec 256) : BitVec 32 := r.extractLsb' 64 32
def fsComm (r : BitVec 256) : BitVec 64 := r.extractLsb' 0 64

def mkStreamReg (sig plan : BitVec 32) (dir : Bool) (vc : BitVec 3) (tag : BitVec 16) (peer rank : BitVec 32)
    (comm : BitVec 64) : BitVec 256 :=
  BitVec.ofNat 256 (comm.toNat + rank.toNat * 2 ^ 64 + peer.toNat * 2 ^ 96 + tag.toNat * 2 ^ 128 + vc.toNat * 2 ^ 144
    + 2 ^ 147 + (if dir then 2 ^ 148 else 0) + plan.toNat * 2 ^ 160 + sig.toNat * 2 ^ 192)

/-- Add 1 to SEQ or MSEQ of a register (R417). -/
def bumpSeq (r : BitVec 256) : BitVec 256 := r + BitVec.ofNat 256 (2 ^ 224)

/-! ### Plans (R418, R419) -/

/-- The plan a register names; handle 0 is the local plan. -/
inductive PlanRef where
  | localPlan
  | loaded (p : Plan)
  | missing
  deriving DecidableEq, Repr

def planOf (s : State) (part : Nat) (h : BitVec 32) : PlanRef :=
  if h = 0 then .localPlan
  else match s.plans.find? fun p => p.handle == h && p.part == part with
    | some p => .loaded p
    | none => .missing

/-- ABTNS (R418). -/
def PlanRef.abtns : PlanRef → Nat
  | .loaded p => p.abtns.toNat
  | _ => 10000000

/-- LATNS of the local plan (R418). -/
def switchLatency : Nat := 400

/-- LATNS (R418): the on-package switch's 400 ns and the Fuond hops of the slowest path, between two members or from a member to the apex. A
plan whose members are all on this package has no hop. -/
def planLatns (s : State) (members : List (BitVec 16)) : BitVec 64 :=
  if members.all fun m => m == s.pkgid then BitVec.ofNat 64 switchLatency
  else
    let pairs := (members.map fun a => members.map fun b => if a = b then 0 else (Config.hopLatency s.ctr a b).toNat).flatten
    BitVec.ofNat 64 (switchLatency + (pairs ++ members.map fun a => (Config.apexLatency s.ctr a).toNat).foldl max 0)

/-- The member list is at least as long as the group, this member's rank is on this package, and the peer has an entry where one is named
(R419). -/
def planReaches (s : State) (part : Nat) (h : BitVec 32) (fits : Nat → Bool) (rank : Nat) (peer : Option Nat) : Bool :=
  match planOf s part h with
  | .localPlan => true
  | .missing => false
  | .loaded p => fits p.members.length && p.members[rank]? == some s.pkgid
      && (match peer with
        | some q => q < p.members.length
        | none => true)

/-- A plan with `n` member entries has as many as the group of a fabric stream register. The register holds no COUNT: its SIG is the group
signature of exactly one (R415, R416, R419; log entry 29). -/
def streamFits (r : BitVec 256) (n : Nat) : Bool :=
  (List.range (n + 1)).any fun c => groupSig (fsComm r) (BitVec.ofNat 32 c) (fsPlan r) (fsVc r) == fsSig r

/-- The member of a rank is on this package. -/
def memberHere (s : State) (part : Nat) (h : BitVec 32) (rank : Nat) : Bool :=
  match planOf s part h with
  | .loaded p => p.members[rank]? == some s.pkgid
  | _ => true

/-! ### Limb strings (R425) -/

/-- Limbs of an accumulator, lowest first. -/
def limbs (x : Acc) : List Nat := (List.range 10).map fun i => fld x.a.toNat (64 * i) 64

/-- The limb string of an accumulator: the fewest limbs. -/
def limbString (x : Acc) : List (BitVec 8) :=
  let ls := limbs x
  let neg := x.a.msb
  let fill := if neg then 2 ^ 64 - 1 else 0
  let top := ((List.range 10).filter fun i => ls.getD i 0 != fill).foldl (fun a i => max a (i + 1)) 0
  let lo := if x.a = 0 then 0 else ((List.range 10).find? fun i => ls.getD i 0 != 0).getD 0
  let n := top - lo
  bytesLE 1 (lo + 16 * n) ++ bytesLE 1 (if neg then 1 else 0) ++ bytesLE 2 0 ++ bytesLE 4 x.status
    ++ (((ls.drop lo).take n).map fun l => bytesLE 8 l).flatten

/-- Read a limb string; one that breaks the table is taken with POISON set (R110, R425). -/
def ofLimbString (bs : List (BitVec 8)) : Acc :=
  let b0 := ofBytesLE (bs.take 1)
  let b1 := ofBytesLE ((bs.drop 1).take 1)
  let z := ofBytesLE ((bs.drop 2).take 2)
  let st := ofBytesLE ((bs.drop 4).take 4)
  let lo := b0 % 16
  let n := b0 / 16
  let bad := b1 / 2 ≠ 0 || z ≠ 0 || 9 < lo || 10 < n || 10 < lo + n || bs.length ≠ 8 * n + 8
  let body := ofBytesLE ((bs.drop 8).take (8 * n)) * 2 ^ (64 * lo)
  let high := if b1 % 2 = 1 then (2 ^ 640 - 2 ^ (64 * (lo + n))) else 0
  let x := Acc.ofImage (bytesLE 80 (body + high) ++ bytesLE 8 st ++ bytesLE 8 0)
  { x with poison := x.poison || bad }

/-! ### Collectives (R422 to R428) -/

/-- The types of VCOLL: its format, or an integer with its signedness (R65). -/
def collFmt (t : BitVec 3) : MFmt := if t = 4 then .fp .bf16 else if t = 5 then .fp .f32 else .int (if t.getLsbD 0 then 8 else 4)
def collSigned (t : BitVec 3) : Bool := t.toNat < 2

def collKey (part : Nat) (r : BitVec 256) : CollKey := ⟨part, grpComm r, grpVc r, grpPlan r⟩

/-- The collective signature (R426). -/
def collSig (e : QEntry) (o : KOps) : BitVec 32 :=
  let c := mix32 (grpSig e.image ^^^ grpSeq e.image)
  let c := mix32 (c ^^^ BitVec.ofNat 32 (o.kind.toNat + 8 * o.opr.toNat + 32 * o.t.toNat + 256 * e.frm.toNat
    + 65536 * e.vl.toNat))
  if o.opr = 0 ∧ (o.t = 4 ∨ o.t = 5) ∧ Rm.ofCode e.frm.toNat = .sr then
    mix32 (c ^^^ e.seed.extractLsb' 0 32 ^^^ e.seed.extractLsb' 32 32)
  else c

/-- What a member sends: the elements its kind reads; in a broadcast rank 0 alone reads any (R423). -/
def collReads (t : Thread) (e : QEntry) (o : KOps) : List Nat :=
  let a := e.opnd o.a6
  let n := if o.kind = 1 then e.vl.toNat / (grpCount e.image).toNat else if o.kind = 3 ∧ grpRank e.image ≠ 0 then 0 else e.vl.toNat
  (List.range n).map fun k => t.el a k

def collChunk (t : Thread) (e : QEntry) (o : KOps) : CollChunk :=
  ⟨collKey t.part e.image, [(grpRank e.image).toNat], grpSeq e.image, collSig e o, e.frm, e.seed, .raw (collReads t e o)⟩

/-- `x` is a later SEQ than `y` (R426). -/
def seqAfter (x y : BitVec 32) : Bool := let d := (x - y).toNat; 1 ≤ d && d < 2 ^ 31

/-- The place of a member among those that a strip goes to. -/
def Contribution.place (c : Contribution) (r : Nat) : Nat := if c.per = 1 then 0 else if r < c.chunk.ranks.headD 0 then r else r - 1

/-- The first chunk of a strip, which carries the signature, has reached a member; and every chunk for it has (R22, R426). -/
def Contribution.seen (c : Contribution) (r : Nat) : Bool := c.place r < c.got
def Contribution.whole (c : Contribution) (r : Nat) : Bool := c.total + c.place r < c.got + c.per

/-- The contributions that a member of rank `r` at SEQ `q` finds: from other ranks, not later, not taken. -/
def contribsFor (s : State) (k : CollKey) (r : Nat) (q : BitVec 32) : List Contribution :=
  s.contribs.filter fun c => c.chunk.key == k && !c.taken.contains r && !seqAfter c.chunk.seq q && !c.chunk.ranks.contains r && c.seen r

def collArrived (s : State) (k : CollKey) (r : Nat) (q : BitVec 32) : List CollChunk := (contribsFor s k r q).map Contribution.chunk

/-- Every other rank's strip has arrived. -/
def collComplete (s : State) (k : CollKey) (r count : Nat) (q : BitVec 32) : Bool :=
  let rs := (((contribsFor s k r q).filter fun c => c.whole r).map fun c => c.chunk.ranks).flatten
  (List.range count).all fun m => m == r || rs.contains m

/-- Each chunk that has arrived carries the member's own signature. -/
def collMatches (s : State) (k : CollKey) (r : Nat) (q cs : BitVec 32) : Bool :=
  (collArrived s k r q).all fun c => c.cs == cs

/-- Element `i` of rank `m`'s strip among the chunks. -/
def rawOf (cs : List CollChunk) (m i : Nat) : Nat :=
  match cs.find? fun c => c.ranks == [m] with
  | some c => match c.data with
    | .raw l => l.getD i 0
    | .sums _ => 0
  | none => 0

/-- Combine position `i` over every member: the pattern, flags, and whether the sum is poisoned (R424). -/
def collCombine (cs : List CollChunk) (o : KOps) (count i owner e : Nat) : Nat × Flg × Bool :=
  let f := collFmt o.t
  let n := 8 * f.bytes
  let strips := cs.map CollChunk.data
  match f with
  | .fp fm =>
    if o.opr = 0 then
      let r := strips.foldl (fun (a : Acc × Flg) d => match d with
        | .raw l => (a.1.addVal (decodeF fm (l.getD i 0)) false, a.2 ||| flIf (isSNaNBits fm (l.getD i 0)) flNV)
        | .sums l => (a.1.combine (ofLimbString (l.getD i [])), a.2)) (Acc.zero, (0 : Flg))
      let own := (cs.find? fun c => c.ranks.contains owner).getD ⟨⟨0, 0, 0, 0⟩, [], 0, 0, 0, 0, .raw []⟩
      let x := r.1.extract fm (Rm.ofCode own.frm.toNat) (srHash own.seed e (0x30000000 + owner % 2 ^ 28))
      (x.bits, r.2 ||| x.fl, r.1.poison)
    else
      let vals := (List.range count).map fun m => rawOf cs m i
      let r := vals.tail.foldl (fun (a : Res) v =>
        let y := fMinMax fm (o.opr == 1) a.bits v
        ⟨y.bits, a.fl ||| y.fl⟩) (let v := vals.headD 0; if vals.length = 1 then fMinMax fm (o.opr == 1) v v else ⟨v, 0⟩)
      (r.bits, r.fl, false)
  | _ =>
    let vals := (List.range count).map fun m => rawOf cs m i
    let lt (a b : Nat) : Bool := readInt (collSigned o.t) n a < readInt (collSigned o.t) n b
    let g (a v : Nat) : Nat :=
      if o.opr = 0 then (a + v) % 2 ^ n else if o.opr = 1 then (if lt a v then v else a) else if lt v a then v else a
    (vals.tail.foldl g (vals.headD 0), 0, false)

/-- The elements a member writes, the flags over every owner and element, and poison (R423, R424, R427). -/
def collResult (cs : List CollChunk) (o : KOps) (count rank vl : Nat) : List Nat × Flg × Bool :=
  let k := vl / count
  let all (n : Nat) (f : Nat → Nat × Flg × Bool) : List Nat × Flg × Bool :=
    let rs := (List.range n).map f
    (rs.map fun r => r.1, rs.foldl (fun a r => a ||| r.2.1) 0, rs.any fun r => r.2.2)
  match o.kind.toNat with
  | 0 =>
    let r := all vl fun i => collCombine cs o count i (i / k) i
    ((r.1.drop (rank * k)).take k, r.2)
  | 1 => ((List.range vl).map fun i => rawOf cs (i / k) (i % k), 0, false)
  | 2 => all vl fun i => collCombine cs o count i (i % count) i
  | 3 => ((List.range vl).map fun i => rawOf cs 0 i, 0, false)
  | _ => ((List.range vl).map fun i => rawOf cs (i / k) (rank * k + i % k), 0, false)

/-- Write a collective's result; elements the kind does not write follow the tail rule (R423). -/
def collWrite (t : Thread) (e : QEntry) (o : KOps) (vals : List Nat) : Thread :=
  let d := e.opnd o.d6
  let u := (List.range vals.length).foldl (fun u k => u.setEl d k (vals.getD k 0)) t
  putTail u d (tailZero e.vtype) vals.length

/-- The members that a decision on the collective of a chunk has reached: they use no chunk of it any more (R426). -/
def reachedBy (s : State) (c : CollChunk) : List Nat :=
  match s.apexes.find? fun a => a.key == c.key && a.seq == c.seq with
  | some a => a.reached
  | none => []

/-- The strip of the same member for the same collective. -/
def Contribution.same (c : CollChunk) (x : Contribution) : Bool := x.chunk.key == c.key && x.chunk.ranks == c.ranks && x.chunk.seq == c.seq

/-- A member's strip, of which nothing has arrived yet; one that starts again puts its own in the place of that which it sent before. -/
def putOwn (s : State) (c : CollChunk) (per total : Nat) : State :=
  if s.contribs.any (Contribution.same c) then
    { s with contribs := s.contribs.map fun (x : Contribution) =>
        if x.same c then { x with chunk := c, got := 0, per := per, total := total } else x }
  else { s with contribs := s.contribs ++ [{ chunk := c, taken := reachedBy s c, got := 0, per := per, total := total }] }

/-- Chunks of `n` bytes; a header alone takes one (R430). -/
def chunkCount (n : Nat) : Nat := max 1 ((n + 4095) / 4096)

/-- The chunks that a member sends in a collective: those of its strip to each other member (R426, R428; log entry 87). -/
def collSend (s : State) (t : Thread) (e : QEntry) (c : CollChunk) : Send :=
  let n := match c.data with
    | .raw l => l.length * (ewBits e.vtype / 8)
    | .sums _ => 0
  { slot := t.slot, launch := t.launch, rank := t.rank, seq := e.seq, order := s.nextOp, load := .coll c, here := true,
    per := (grpCount e.image).toNat - 1, total := ((grpCount e.image).toNat - 1) * chunkCount n }

/-- VCOLL at its start: the plan is checked, vA is read, and its sending begins; a group of one is complete (R419, R423, R428). -/
def effVcoll (s : State) (t : Thread) (e : QEntry) (o : KOps) : Eff :=
  let r := e.image
  let count := (grpCount r).toNat
  if !planReaches s t.part (grpPlan r) (fun n => decide (count ≤ n)) (grpRank r).toNat none then .fault s t 0 { code := 17 }
  else
    let c := collChunk t e o
    if count = 1 then
      let x := collResult [c] o 1 0 e.vl.toNat
      if x.2.2 then .fault s t 0 { code := 12 } else
      .done s ((if e.vl = 0 then t else collWrite t e o x.1).raise x.2.1)
    else
      let x := collSend s t e c
      .started { putOwn s c x.per x.total with sends := s.sends ++ [x], nextOp := s.nextOp + 1 } t

/-- Mark the chunks a member has used, its own among them; those that every member here has used leave their slots, and nothing is left of the
credits for chunks to the member (R420). -/
def collTake (s : State) (k : CollKey) (r count : Nat) (q : BitVec 32) : State :=
  let mark (c : Contribution) : Contribution :=
    if c.chunk.key == k && !seqAfter c.chunk.seq q && !c.taken.contains r then
      { c with taken := r :: c.taken } else c
  let left (c : Contribution) : Bool :=
    c.chunk.key != k || (List.range count).any fun m => !c.taken.contains m && memberHere s k.part k.plan m
  { s with contribs := (s.contribs.map mark).filter left,
           fstreams := s.fstreams.filter fun x => !(x.key == k && x.dst.toNat == r && x.coll.any fun y => !seqAfter y q) }

/-! ### Messages (R429, R430) -/

def fsKey (part : Nat) (r : BitVec 256) : CollKey := ⟨part, fsComm r, fsVc r, fsPlan r⟩

def messageOf (t : Thread) (e : QEntry) (o : MOps) : Message :=
  let r := e.image
  ⟨fsKey t.part r, fsRank r, fsPeer r, fsTag r, fsMseq r, o.f, e.vl, (List.range e.vl.toNat).map fun k => t.el (e.opnd o.a6) k⟩

/-- VSEND at its start (R419, R430). -/
def effVsend (s : State) (t : Thread) (e : QEntry) (o : MOps) : Eff :=
  let r := e.image
  let peer := (fsPeer r).toNat
  if !planReaches s t.part (fsPlan r) (streamFits r) (fsRank r).toNat (some peer) then .fault s t 0 { code := 17 }
  else
    let m := messageOf t e o
    let snd : Send :=
      { slot := t.slot, launch := t.launch, rank := t.rank, seq := e.seq, order := s.nextOp, load := .msg m,
        here := memberHere s t.part (fsPlan r) peer, total := chunkCount (e.vl.toNat * (ewBits e.vtype / 8)) }
    .started { s with sends := s.sends ++ [snd], nextOp := s.nextOp + 1 } t

/-- The message that a VRECV takes: its own COMM, rank, peer, tag and MSEQ (R430). -/
def takes (part : Nat) (r : BitVec 256) (m : Message) : Bool :=
  m.key.part == part && m.key.comm == fsComm r && m.dst == fsRank r && m.src == fsPeer r && m.tag == fsTag r
    && m.mseq == fsMseq r

/-- Give a VRECV its message; with VL = 0 no register changes (R174, R430). -/
def recvNow (s : State) (t : Thread) (e : QEntry) (o : MOps) (m : Message) : Eff :=
  if m.f = o.f ∧ m.vl = e.vl then
    if e.vl = 0 then .done s t else
    let d := e.opnd o.d6
    let u := (List.range e.vl.toNat).foldl (fun u k => u.setEl d k (m.data.getD k 0)) t
    .done s (putTail u d (tailZero e.vtype) e.vl.toNat)
  else .fault s t 0 { code := 18 }

/-- Chunks of a message leave the receiver's slots: that many slot-free notices are on their way (R420). -/
def freeSlots (s : State) (m : Message) (n : Nat) : State :=
  { s with fstreams := s.fstreams.map fun x =>
      if x.coll.isNone && x.key == m.key && x.src == m.src && x.dst == m.dst && x.tag == m.tag then { x with notices := x.notices + n } else x }

/-- VRECV at its start, or again when a message has arrived (R419, R430). -/
def effVrecv (s : State) (t : Thread) (e : QEntry) (o : MOps) : Eff :=
  let r := e.image
  if !planReaches s t.part (fsPlan r) (streamFits r) (fsRank r).toNat (some (fsPeer r).toNat) then .fault s t 0 { code := 17 }
  else match s.inbox.find? fun b => takes t.part r b.msg with
    | some b =>
      let s1 := freeSlots s b.msg b.held
      if b.arrived = b.total then recvNow { s1 with inbox := s1.inbox.filter fun x => x ≠ b } t e o b.msg
      else .started { s1 with inbox := s1.inbox.map fun x => if x = b then { x with held := 0 } else x } t
    | none => .started s t

/-- The stream of a message. -/
def streamFor (s : State) (m : Message) : FStream :=
  (s.fstreams.find? fun x => x.coll.isNone && x.key == m.key && x.src == m.src && x.dst == m.dst && x.tag == m.tag).getD
    { key := m.key, src := m.src, dst := m.dst, tag := m.tag }

def State.putStream (s : State) (x : FStream) : State :=
  { s with fstreams := x :: s.fstreams.filter fun y =>
      !(y.key == x.key && y.src == x.src && y.dst == x.dst && y.tag == x.tag && y.coll == x.coll) }

/-- What a member sends another in a collective (R420). -/
def collStream (s : State) (c : CollChunk) (dst : Nat) : FStream :=
  let src := BitVec.ofNat 32 (c.ranks.headD 0)
  (s.fstreams.find? fun x => x.key == c.key && x.src == src && x.dst.toNat == dst && x.coll == some c.seq).getD
    { key := c.key, src := src, dst := BitVec.ofNat 32 dst, tag := 0, coll := some c.seq }

/-- The member that the next chunk of a strip goes to. -/
def Send.toRank (x : Send) (c : CollChunk) : Nat := let p := x.sent % x.per; if p < c.ranks.headD 0 then p else p + 1

/-- A fabric stream register, as it stands or as a queue entry captured it, receives a stream. -/
def receives (part : Nat) (r : BitVec 256) (x : FStream) : Bool :=
  fsValid r && fsDir r && fsKey part r == x.key && fsRank r == x.dst && fsPeer r == x.src && fsTag r == x.tag

/-- A VRECV that has not committed and receives a stream. -/
def recvQueued (t : Thread) (x : FStream) : Bool :=
  (t.queue ++ t.held).any fun e => match e.instr with
    | .vrecv _ => receives t.part e.image x
    | _ => false

/-- Slots that the receiver of a stream reserves: four for each register with DIR = 1 that receives it, and while only pushed VRECVs
receive it, four. A receiver on another package has one register (R420; log entry 88). -/
def streamSlots (s : State) (x : FStream) : Nat :=
  if !memberHere s x.key.part x.key.plan x.dst.toNat then 4
  else
    let ts := s.threads ++ s.saved.map SavedThread.thread
    let n := (ts.map fun t => (t.f.toList.filter fun r => receives t.part r x).length).sum
    if n = 0 && ts.any (fun t => recvQueued t x) then 4 else 4 * n

/-- The priority of a sender's thread (R421). -/
def sendLevel (s : State) (x : Send) : Nat :=
  match s.threads.find? fun t => t.slot == x.slot with
  | some t => t.level.toNat
  | none => 0

/-- The member here of a rank runs a collective: it uses the chunks that arrive, and their slots become free (R420, R428). -/
def runsColl (s : State) (k : CollKey) (q : BitVec 32) (r : Nat) : Bool :=
  s.threads.any fun t => t.queue.any fun e => match e.instr with
    | .vcoll _ => e.started && !e.done && collKey t.part e.image == k && grpSeq e.image == q && (grpRank e.image).toNat == r
    | _ => false

/-- Slots that each member reserves for the chunks of every other, of those the plan gives for a collective in flight (R420). -/
def collSlots (s : State) (c : CollChunk) (others : Nat) : Nat :=
  match planOf s c.key.part c.key.plan with
  | .loaded p => max 1 (p.slots / others)
  | _ => 1

/-- A chunk holds a credit (R420). -/
def hasCredit (s : State) (x : Send) : Bool :=
  match x.load with
  | .msg m => (streamFor s m).spent < streamSlots s (streamFor s m)
  | .coll c => (collStream s c (x.toRank c)).spent < collSlots s c x.per

/-- The waiting chunk a facet sends next: the highest level, then the longest waiting, among those that hold a credit (R420, R421). -/
def nextSend (s : State) (f : Nat) : Option Send :=
  let c := s.sends.filter fun x => x.slot / Config.slotsPerFacet == f && x.sent < x.total && hasCredit s x
  c.foldl (fun best x => match best with
    | none => some x
    | some b => if sendLevel s b < sendLevel s x ∨ (sendLevel s b = sendLevel s x ∧ x.order < b.order) then some x else some b) none

/-- One chunk of a message on this package arrives in the receiver's slots (R430). -/
def putChunk (s : State) (m : Message) (total : Nat) : State :=
  if s.inbox.any fun b => b.msg = m ∧ b.arrived < b.total then
    { s with inbox := s.inbox.map fun b => if b.msg = m ∧ b.arrived < b.total then
        { b with arrived := b.arrived + 1, held := b.held + 1 } else b }
  else { s with inbox := s.inbox ++ [{ msg := m, arrived := 1, total := total, held := 1 }] }

end
end Sys2Proof.Machine
end

