-- ==== Sys2Proof/Machine/QueueInfo.lean ====
section
/-! DEFINITION. What the push of a queued instruction looks at: its form, its peer, its captures, its vector operands and the
checks against VTYPE and VL (spec/07_vector_register_storage.md R171; spec/08_lanes_and_vector_operations.md R189 to R193 and
the push checks of spec/09, spec/11, spec/12, spec/16, spec/19). -/

namespace Sys2Proof.Machine
open Sys2Proof

noncomputable section

/-- Forms of the V layout. -/
inductive VKind where
  | int (k : Src2) (rmw : Bool) | mv (k : Src2) | widen (k : Src2) (rmw : Bool) | nshr (k : Src2) | merge (k : Src2)
  | intCmp (k : Src2) | fp (k : Src2) (rmw : Bool) | sqrt | fpCmp (k : Src2)
  | mask | reconf | slideu | slided | gather | compress | iota | ext | ins | red | fred | fredms | fcvt | fcvtEf
  | vrec | vendrec | replay
  deriving DecidableEq, Repr

/-- Forms of the VM layout. -/
inductive MKind where
  | load | loadS | loadX | loadSeg | cbld | fill | store | storeS | storeX | storeSeg | spill
  | ldpSum | ldpMaxsum | ldp | stp | chrun | amo (cas : Bool) | send | recv
  deriving DecidableEq, Repr

/-- Forms of the X layout. -/
inductive XKind where
  | aalloc | afree | hand | ldws | mstream | mop | axt | image | trow | tcol | trmem | tmov | tokp | tokw | fence
  deriving DecidableEq, Repr

/-- The form of an instruction; `no` where it is not queued. -/
inductive QForm where
  | no
  | v (o : VOps) (k : VKind)
  | m (o : MOps) (k : MKind)
  | x (o : XOps) (k : XKind)
  | coll (o : KOps)
  deriving DecidableEq, Repr


/-- The form of each queued instruction. -/
def qForm : Instr → QForm
  | .vaddVv o => .v o (.int .vec false)
  | .vaddVg o => .v o (.int .gen false)
  | .vaddVi o => .v o (.int .imm false)
  | .vsubVv o => .v o (.int .vec false)
  | .vsubVg o => .v o (.int .gen false)
  | .vrsubVg o => .v o (.int .gen false)
  | .vrsubVi o => .v o (.int .imm false)
  | .vmulVv o => .v o (.int .vec false)
  | .vmulVg o => .v o (.int .gen false)
  | .vmulhVv o => .v o (.int .vec false)
  | .vmulhVg o => .v o (.int .gen false)
  | .vmaccVv o => .v o (.int .vec true)
  | .vmaccVg o => .v o (.int .gen true)
  | .vnmsacVv o => .v o (.int .vec true)
  | .vnmsacVg o => .v o (.int .gen true)
  | .vwaddVv o => .v o (.widen .vec false)
  | .vwaddVg o => .v o (.widen .gen false)
  | .vwmulVv o => .v o (.widen .vec false)
  | .vwmulVg o => .v o (.widen .gen false)
  | .vwmaccVv o => .v o (.widen .vec true)
  | .vwmaccVg o => .v o (.widen .gen true)
  | .vnshrVv o => .v o (.nshr .vec)
  | .vnshrVg o => .v o (.nshr .gen)
  | .vnshrVi o => .v o (.nshr .imm)
  | .vsaddVv o => .v o (.int .vec false)
  | .vsaddVg o => .v o (.int .gen false)
  | .vsaddVi o => .v o (.int .imm false)
  | .vssubVv o => .v o (.int .vec false)
  | .vssubVg o => .v o (.int .gen false)
  | .vavgVv o => .v o (.int .vec false)
  | .vavgVg o => .v o (.int .gen false)
  | .vminVv o => .v o (.int .vec false)
  | .vminVg o => .v o (.int .gen false)
  | .vmaxVv o => .v o (.int .vec false)
  | .vmaxVg o => .v o (.int .gen false)
  | .vandVv o => .v o (.int .vec false)
  | .vandVg o => .v o (.int .gen false)
  | .vandVi o => .v o (.int .imm false)
  | .vorVv o => .v o (.int .vec false)
  | .vorVg o => .v o (.int .gen false)
  | .vorVi o => .v o (.int .imm false)
  | .vxorVv o => .v o (.int .vec false)
  | .vxorVg o => .v o (.int .gen false)
  | .vxorVi o => .v o (.int .imm false)
  | .vshlVv o => .v o (.int .vec false)
  | .vshlVg o => .v o (.int .gen false)
  | .vshlVi o => .v o (.int .imm false)
  | .vshrVv o => .v o (.int .vec false)
  | .vshrVg o => .v o (.int .gen false)
  | .vshrVi o => .v o (.int .imm false)
  | .vsarVv o => .v o (.int .vec false)
  | .vsarVg o => .v o (.int .gen false)
  | .vsarVi o => .v o (.int .imm false)
  | .vmergeVv o => .v o (.merge .vec)
  | .vmergeVg o => .v o (.merge .gen)
  | .vmergeVi o => .v o (.merge .imm)
  | .vmvVv o => .v o (.mv .vec)
  | .vmvVg o => .v o (.mv .gen)
  | .vmvVi o => .v o (.mv .imm)
  | .vcmpEqVv o => .v o (.intCmp .vec)
  | .vcmpEqVg o => .v o (.intCmp .gen)
  | .vcmpEqVi o => .v o (.intCmp .imm)
  | .vcmpNeVv o => .v o (.intCmp .vec)
  | .vcmpNeVg o => .v o (.intCmp .gen)
  | .vcmpNeVi o => .v o (.intCmp .imm)
  | .vcmpLtVv o => .v o (.intCmp .vec)
  | .vcmpLtVg o => .v o (.intCmp .gen)
  | .vcmpLtVi o => .v o (.intCmp .imm)
  | .vcmpLeVv o => .v o (.intCmp .vec)
  | .vcmpLeVg o => .v o (.intCmp .gen)
  | .vcmpLeVi o => .v o (.intCmp .imm)
  | .vcmpGtVv o => .v o (.intCmp .vec)
  | .vcmpGtVg o => .v o (.intCmp .gen)
  | .vcmpGtVi o => .v o (.intCmp .imm)
  | .vcmpGeVv o => .v o (.intCmp .vec)
  | .vcmpGeVg o => .v o (.intCmp .gen)
  | .vcmpGeVi o => .v o (.intCmp .imm)
  | .vfaddVv o => .v o (.fp .vec false)
  | .vfaddVg o => .v o (.fp .gen false)
  | .vfsubVv o => .v o (.fp .vec false)
  | .vfsubVg o => .v o (.fp .gen false)
  | .vfmulVv o => .v o (.fp .vec false)
  | .vfmulVg o => .v o (.fp .gen false)
  | .vfmaVv o => .v o (.fp .vec true)
  | .vfmaVg o => .v o (.fp .gen true)
  | .vfnmaVv o => .v o (.fp .vec true)
  | .vfnmaVg o => .v o (.fp .gen true)
  | .vfdivVv o => .v o (.fp .vec false)
  | .vfdivVg o => .v o (.fp .gen false)
  | .vfsqrt o => .v o .sqrt
  | .vfminVv o => .v o (.fp .vec false)
  | .vfminVg o => .v o (.fp .gen false)
  | .vfmaxVv o => .v o (.fp .vec false)
  | .vfmaxVg o => .v o (.fp .gen false)
  | .vfcmpEqVv o => .v o (.fpCmp .vec)
  | .vfcmpEqVg o => .v o (.fpCmp .gen)
  | .vfcmpNeVv o => .v o (.fpCmp .vec)
  | .vfcmpNeVg o => .v o (.fpCmp .gen)
  | .vfcmpLtVv o => .v o (.fpCmp .vec)
  | .vfcmpLtVg o => .v o (.fpCmp .gen)
  | .vfcmpLeVv o => .v o (.fpCmp .vec)
  | .vfcmpLeVg o => .v o (.fpCmp .gen)
  | .vfcmpGtVv o => .v o (.fpCmp .vec)
  | .vfcmpGtVg o => .v o (.fpCmp .gen)
  | .vfcmpGeVv o => .v o (.fpCmp .vec)
  | .vfcmpGeVg o => .v o (.fpCmp .gen)
  | .vfcmpUnVv o => .v o (.fpCmp .vec)
  | .vfcmpUnVg o => .v o (.fpCmp .gen)
  | .mand o => .v o .mask
  | .mor o => .v o .mask
  | .mxor o => .v o .mask
  | .mnot o => .v o .mask
  | .mpopc o => .v o .mask
  | .mffs o => .v o .mask
  | .mset o => .v o .mask
  | .vreconf o => .v o .reconf
  | .vslideu o => .v o .slideu
  | .vslided o => .v o .slided
  | .vgather o => .v o .gather
  | .vcompress o => .v o .compress
  | .viota o => .v o .iota
  | .vext o => .v o .ext
  | .vins o => .v o .ins
  | .vredsum o => .v o .red
  | .vredmax o => .v o .red
  | .vredmin o => .v o .red
  | .vfredsum o => .v o .fred
  | .vfredmax o => .v o .fred
  | .vfredmin o => .v o .fred
  | .vfredms o => .v o .fredms
  | .vfcvt o => .v o .fcvt
  | .vfcvtEf o => .v o .fcvtEf
  | .vrec o => .v o .vrec
  | .vendrec o => .v o .vendrec
  | .vreplay o => .v o .replay
  | .aalloc o => .x o .aalloc
  | .aallocWait o => .x o .aalloc
  | .afree o => .x o .afree
  | .aclr o => .x o .hand
  | .ldws o => .x o .ldws
  | .swpl o => .x o .hand
  | .mstream o => .x o .mstream
  | .mopa o => .x o .mop
  | .mops o => .x o .mop
  | .axtr o => .x o .axt
  | .axtc o => .x o .axt
  | .asave o => .x o .image
  | .aload o => .x o .image
  | .aaddi o => .x o .image
  | .trow o => .x o .trow
  | .tcol o => .x o .tcol
  | .tld o => .x o .trmem
  | .tst o => .x o .trmem
  | .vld o => .m o .load
  | .vlds o => .m o .loadS
  | .vldx o => .m o .loadX
  | .vldseg o => .m o .loadSeg
  | .vldff o => .m o .load
  | .cbld o => .m o .cbld
  | .vfill o => .m o .fill
  | .vst o => .m o .store
  | .vsts o => .m o .storeS
  | .vstx o => .m o .storeX
  | .vstseg o => .m o .storeSeg
  | .vspill o => .m o .spill
  | .ldpSum o => .m o .ldpSum
  | .ldpMax o => .m o .ldp
  | .ldpMin o => .m o .ldp
  | .ldpMaxsum o => .m o .ldpMaxsum
  | .ldpAnd o => .m o .ldp
  | .ldpOr o => .m o .ldp
  | .ldpXor o => .m o .ldp
  | .ldpFirst o => .m o .ldp
  | .stp o => .m o .stp
  | .chrun o => .m o .chrun
  | .vamoAdd o => .m o (.amo false)
  | .vamoMin o => .m o (.amo false)
  | .vamoMax o => .m o (.amo false)
  | .vamoAnd o => .m o (.amo false)
  | .vamoOr o => .m o (.amo false)
  | .vamoXor o => .m o (.amo false)
  | .vamoSwap o => .m o (.amo false)
  | .vamoCas o => .m o (.amo true)
  | .vamooAdd o => .m o (.amo false)
  | .vamooMin o => .m o (.amo false)
  | .vamooMax o => .m o (.amo false)
  | .vamooAnd o => .m o (.amo false)
  | .vamooOr o => .m o (.amo false)
  | .vamooXor o => .m o (.amo false)
  | .vamooSwap o => .m o (.amo false)
  | .vamooCas o => .m o (.amo true)
  | .tmov o => .x o .tmov
  | .tokp o => .x o .tokp
  | .tokw o => .x o .tokw
  | .vfence o => .x o .fence
  | .vfenceD o => .x o .fence
  | .vcoll o => .coll o
  | .vsend o => .m o .send
  | .vrecv o => .m o .recv
  | _ => .no

/-- The 32-bit form of a compact parcel, whose first source is LVD (R73, R217). -/
def compactOps (e : BitVec 3) (lvd : BitVec 6) (b d : Reg) : VOps :=
  ⟨if lvd.toNat < 32 then .none else .hireg 0 false false true false 0, e, false, false, b, BitVec.ofNat 5 lvd.toNat, d⟩

def expand (lvd : BitVec 6) : Instr → Instr
  | .cvVaddI32 b d => .vaddVv (compactOps 2 lvd b d)
  | .cvVsubI32 b d => .vsubVv (compactOps 2 lvd b d)
  | .cvVmulI32 b d => .vmulVv (compactOps 2 lvd b d)
  | .cvVmaccI32 b d => .vmaccVv (compactOps 2 lvd b d)
  | .cvVmaxI32 b d => .vmaxVv (compactOps 2 lvd b d)
  | .cvVxorI32 b d => .vxorVv (compactOps 2 lvd b d)
  | .cvVfaddF32 b d => .vfaddVv (compactOps 2 lvd b d)
  | .cvVfmulF32 b d => .vfmulVv (compactOps 2 lvd b d)
  | .cvVfmaF32 b d => .vfmaVv (compactOps 2 lvd b d)
  | .cvVfmaxF32 b d => .vfmaxVv (compactOps 2 lvd b d)
  | .cvVfaddBf16 b d => .vfaddVv (compactOps 1 lvd b d)
  | .cvVfmulBf16 b d => .vfmulVv (compactOps 1 lvd b d)
  | .cvVfmaBf16 b d => .vfmaVv (compactOps 1 lvd b d)
  | .cvVfmaxBf16 b d => .vfmaxVv (compactOps 1 lvd b d)
  | i => i

/-! ### Peers, convoys and captures -/

/-- The prefix word and the c bit. -/
def QForm.pre : QForm → Pre
  | .no => .none
  | .v o _ => o.pre
  | .m o _ => o.pre
  | .x o _ => o.pre
  | .coll o => o.pre
def QForm.cbit : QForm → Bool
  | .no => false
  | .v o _ => o.c
  | .m o _ => o.c
  | .x o _ => o.c
  | .coll o => o.c

/-- The peer an instruction issues from (R287); TOKP and TOKW name theirs (R292). -/
def QForm.peer : QForm → Nat
  | .m _ .send => 3
  | .m _ .recv => 3
  | .coll _ => 3
  | .x _ .tmov => 2
  | .x o .tokp => fld o.q.toNat 0 2
  | .x o .tokw => fld o.q.toNat 2 2
  | .x _ .fence => 0
  | .x _ _ => 1
  | _ => 0

/-- The token queue an entry pops before it starts (R289, R292), as an index. -/
def QForm.waits (q : QForm) : Option Nat :=
  let t8 := (preT8 q.pre).toNat
  match q with
  | .x o .tokw => some (tokIdx (fld o.q.toNat 0 2) (fld o.q.toNat 2 2))
  | q => if bitAt t8 0 then some (tokIdx (fld t8 1 3) q.peer) else none

/-- The token queue it pushes into when it retires (R290, R292). -/
def QForm.pushes (q : QForm) : Option Nat :=
  let t8 := (preT8 q.pre).toNat
  match q with
  | .x o .tokp => some (tokIdx (fld o.q.toNat 0 2) (fld o.q.toNat 2 2))
  | q => if bitAt t8 4 then some (tokIdx q.peer (fld t8 5 3)) else none

/-- A register of the second operand of a .VG form. -/
def genB (k : Src2) (b : Reg) : Option Reg := if k = .gen then some b else none

/-- General registers captured as the first, the second and the third scalar (R163, R191, R270). -/
def QForm.caps : QForm → Option Reg × Option Reg × Option Reg
  | .no => (none, none, none)
  | .v o k =>
    match k with
    | .int k _ | .mv k | .widen k _ | .nshr k | .merge k | .intCmp k | .fp k _ | .fpCmp k => (none, genB k o.b, none)
    | .slideu | .slided | .ext => (none, some o.b, none)
    | .ins => (some o.a, some o.b, none)
    | .replay => (some o.a, none, none)
    | _ => (none, none, none)
  | .m o k =>
    let sc := match o.pre with
      | .scale g => if g = 0 then none else some g
      | _ => none
    match k with
    | .loadS | .storeS => (some o.a, some o.b, sc)
    | .ldpSum | .ldpMaxsum | .ldp | .stp => (none, some o.b, none)
    | .chrun => (none, some o.b, some o.d)
    | .send | .recv => (none, none, none)
    | _ => (some o.a, none, sc)
  | .x o k =>
    match k with
    | .mstream | .axt | .trow | .tcol => (none, some o.b, none)
    | .image => (some o.a, none, none)
    | .trmem | .tmov => (some o.a, some o.b, none)
    | _ => (none, none, none)
  | .coll _ => (none, none, none)

/-- The register image that an entry captures. -/
inductive ImgRef where
  | none | bank (r : Reg) | tree (r : Reg) | grp (r : Reg) | fab (r : Reg)
  deriving DecidableEq, Repr

def QForm.img : QForm → ImgRef
  | .m o .ldpSum => .tree o.a
  | .m o .ldpMaxsum => .tree o.a
  | .m o .ldp => .tree o.a
  | .m o .stp => .bank o.a
  | .m o .chrun => .bank o.a
  | .m o .send => .fab o.d
  | .m o .recv => .fab o.a
  | .coll o => .grp o.b
  | _ => .none

/-- The handle an instruction names (R226). -/
def QForm.handle : QForm → Option Nat
  | .x o k =>
    match k with
    | .aalloc => some o.a.toNat
    | .axt => some o.a.toNat
    | .afree | .hand | .ldws | .mstream | .mop | .image => some o.d.toNat
    | _ => none
  | _ => none

/-- Instructions that a recording refuses (R219). -/
def QForm.unrecorded (q : QForm) (i : Instr) : Bool :=
  (pendingReg i).isSome ||
  match q with
  | .v _ .vrec | .v _ .replay | .v _ .reconf => true
  | .x _ k => k == .aalloc || k == .afree || k == .tmov || k == .tokp || k == .tokw || k == .fence
  | .m _ .send | .m _ .recv | .coll _ => true
  | _ => false

/-- Whole instructions: every element as one step (R193, R183, R230 to R245, R278, R428, R429). -/
def QForm.whole : QForm → Bool
  | .v _ k =>
    match k with
    | .mask | .reconf | .compress | .iota | .ext | .ins | .red | .fred | .fredms | .vrec | .vendrec | .replay => true
    | _ => false
  | .m _ k =>
    match k with
    | .cbld | .fill | .spill | .send | .recv => true
    | _ => false
  | .x _ k => !(k == .mstream || k == .mop || k == .trow || k == .tcol)
  | .coll _ => true
  | .no => false

/-- The group of a plural instruction: it counts set indices, not elements (R299). -/
def QForm.plural : QForm → Bool
  | .m _ k =>
    match k with
    | .ldpSum | .ldpMaxsum | .ldp | .stp | .chrun => true
    | _ => false
  | _ => false

/-- An instruction whose VSTART is at or beyond VL performs no element and changes no vector or mask register (R174). The forms
that write a general register, the reductions and the whole instructions with their own reading of VL still run. -/
def emptyRun (e : QEntry) : Bool :=
  e.vl.toNat ≤ e.vstart.toNat && (pendingReg e.instr).isNone &&
  match qForm e.instr with
  | .v _ k => !(k == .red || k == .fred || k == .fredms || k == .reconf || k == .vrec || k == .vendrec || k == .replay)
  | .m _ k =>
    match k with
    | .load | .loadS | .loadX | .loadSeg | .store | .storeS | .storeX | .storeSeg | .amo _ => true
    | _ => false
  | .x _ k => k == .mstream || k == .mop || k == .axt || k == .trow || k == .tcol
  | _ => false

/-! ### Vector operands -/

/-- A vector operand: its field (0 D, 1 A, 2 B), its group, whether its old value is read too, whether it is the data register of a
memory or plural instruction, and whether a modifier stands on it. -/
structure VOp where
  fld : Nat
  opnd : Opnd
  rmw : Bool := false
  data : Bool := false
  modified : Bool := false
  /-- its group stands in memory and is checked when it runs (R185) -/
  late : Bool := false
  deriving DecidableEq, Repr

/-- What the push checks on a form against the captured VTYPE, VL and registers. -/
structure QInfo where
  dst : List VOp := []
  src : List VOp := []
  /-- a source may be the destination's own group (R190) -/
  elem : Bool := false
  /-- the instruction's own push checks -/
  ok : Bool := true
  deriving DecidableEq, Repr

def QEntry.d (e : QEntry) (r : BitVec 6) : VOp := { fld := 0, opnd := e.opnd r }
def QEntry.a (e : QEntry) (r : BitVec 6) : VOp := { fld := 1, opnd := e.opnd r }
def QEntry.b (e : QEntry) (r : BitVec 6) : VOp := { fld := 2, opnd := e.opnd r }

/-- E and EW agree (R189). -/
def ewInt (e : QEntry) (o : VOps) : Bool := o.e.toNat % 4 == ewCode e.vtype
def ewFp (e : QEntry) (o : VOps) : Bool := o.e.toNat == ewCode e.vtype
/-- A group and width that a widening or narrowing may use (R189). -/
def wideOk (e : QEntry) (n : Nat) : Bool := n * grpOf e.vtype ≤ 8 && n * ewBits e.vtype ≤ 64

def vSrcs (e : QEntry) (o : VOps) (k : Src2) (noA : Bool) : List VOp :=
  let a : List VOp := if noA then [] else [{ e.a o.a6 with modified := preMa o.pre != 0 }]
  let b : List VOp := if k = .vec then [{ e.b o.b6 with modified := preMb o.pre != 0 }] else []
  a ++ b

/-- Operands and checks of the V layout. -/
def vInfo (e : QEntry) (o : VOps) : VKind → QInfo
  | .int k rmw => { dst := [{ e.d o.d6 with rmw := rmw }], src := vSrcs e o k false, elem := true, ok := ewInt e o }
  | .mv k => { dst := [e.d o.d6], src := vSrcs e o k true, elem := true, ok := ewInt e o }
  | .merge k => { dst := [e.d o.d6], src := vSrcs e o k false, elem := true, ok := ewInt e o }
  | .widen k rmw =>
    { dst := [{ fld := 0, opnd := e.wide o.d6, rmw := rmw }], src := vSrcs e o k false, elem := true, ok := ewInt e o && wideOk e 2 }
  | .nshr k =>
    { dst := [e.d o.d6],
      src := { fld := 1, opnd := e.wide o.a6, modified := preMa o.pre != 0 } :: vSrcs e o k true,
      elem := true, ok := ewInt e o && wideOk e 2 }
  | .intCmp k => { src := vSrcs e o k false, ok := ewInt e o }
  | .fp k rmw => { dst := [{ e.d o.d6 with rmw := rmw }], src := vSrcs e o k false, elem := true, ok := ewFp e o }
  | .sqrt => { dst := [e.d o.d6], src := vSrcs e o .imm false, elem := true, ok := ewFp e o }
  | .fpCmp k => { src := vSrcs e o k false, ok := ewFp e o }
  | .mask | .reconf | .vrec | .vendrec | .replay => {}
  | .slideu | .slided => { dst := [e.d o.d6], src := [e.a o.a6], ok := ewInt e o }
  | .gather => { dst := [e.d o.d6], src := [e.a o.a6, e.b o.b6], ok := ewInt e o }
  | .compress => { dst := [e.d o.d6], src := [e.a o.a6], ok := ewInt e o }
  | .iota => { dst := [e.d o.d6], ok := ewInt e o }
  | .ext => { src := [e.a o.a6], ok := ewInt e o }
  | .ins => { dst := [e.d o.d6], ok := ewInt e o }
  | .red => { dst := [e.d o.d6], src := [e.a o.a6, e.b o.b6], ok := ewInt e o }
  | .fred => { dst := [e.d o.d6], src := [e.a o.a6, e.b o.b6], ok := ewFp e o }
  | .fredms => { dst := [e.d o.d6], src := [e.a o.a6, e.b o.b6], ok := ewFp e o && e.vl != 1 }
  | .fcvt =>
    let p := vfcvtOpnds e o
    { dst := [{ fld := 0, opnd := p.1 }], src := [{ fld := 1, opnd := p.2 }], elem := true,
      ok := if o.b.toNat < 4 then ewBits e.vtype == 32 else ewBits e.vtype == 16 && wideOk e 2 }
  | .fcvtEf =>
    let a := if o.b = 0 then e.wide o.a6 else e.quad o.a6
    { dst := [e.d o.d6], src := [{ fld := 1, opnd := a }], elem := true,
      ok := if o.b = 0 then ewBits e.vtype == 16 && wideOk e 2 else ewBits e.vtype == 8 && wideOk e 4 }

/-- Memory format and EW form a pair (R271). -/
def pairOk (e : QEntry) (o : MOps) : Bool := (MFmt.ofCode o.f.toNat).pairs (ewBits e.vtype)
/-- EW is the width of F (R304, R377, R429). -/
def widthOk (e : QEntry) (o : MOps) : Bool := 8 * (MFmt.ofCode o.f.toNat).bytes == ewBits e.vtype

/-- The groups of the fields of a segment form (R273). -/
def segOps (e : QEntry) (o : MOps) : List VOp :=
  (List.range (o.b.toNat + 1)).map fun f => { fld := 0, opnd := segOpnd e o f, data := true }
def segOk (e : QEntry) (o : MOps) (split : BitVec 2) : Bool :=
  let n := (o.b.toNat + 1) * grpOf e.vtype
  n ≤ 8 && o.d6.toNat + n ≤ nregsOf split && pairOk e o

/-- Operands and checks of the VM layout. -/
def mInfo (e : QEntry) (o : MOps) (split : BitVec 2) (k : MKind) : QInfo :=
  let d : VOp := { e.d o.d6 with data := true }
  let grp := rlenOf split * grpOf e.vtype
  match k with
  | .load | .loadS => { dst := [d], ok := pairOk e o }
  | .loadX => { dst := [d], src := [e.b o.b6], ok := pairOk e o }
  | .loadSeg => { dst := segOps e o, ok := segOk e o split }
  | .store | .storeS => { src := [d], ok := pairOk e o }
  | .storeX => { src := [d, e.b o.b6], ok := pairOk e o }
  | .storeSeg => { src := segOps e o, ok := segOk e o split }
  | .cbld => {}
  | .fill => { dst := [{ d with opnd := ⟨o.d6, 1, ewBits e.vtype⟩, late := true }] }
  | .spill => { src := [d] }
  | .stp => { src := [d], ok := pairOk e o && e.setCount != 0 }
  | .ldp => { dst := [d], ok := widthOk e o && e.setCount != 0 }
  | .ldpSum => { dst := [d], ok := widthOk e o && e.setCount != 0 && (o.f.toNat < 8 || e.vl.toNat * 96 ≤ grp) }
  | .ldpMaxsum =>
    { dst := [d], ok := widthOk e o && e.setCount != 0 && e.vl.toNat % 2 == 0 && e.vl.toNat / 2 * 96 ≤ grp }
  | .chrun => { ok := e.setCount != 0 }
  | .amo cas =>
    let n : Opnd := e.opnd (BitVec.ofNat 6 (o.d6.toNat + grpOf e.vtype))
    let c : List VOp := if cas then [{ fld := 0, opnd := n, data := true }] else []
    { dst := [{ d with rmw := true }], src := e.b o.b6 :: c,
      ok := widthOk e o && (!cas || (o.d6.toNat + 2 * grpOf e.vtype ≤ nregsOf split && n.reg != o.b6)) }
  | .send => { src := [e.a o.a6], ok := widthOk e o && fsValid e.image && !fsDir e.image }
  | .recv => { dst := [e.d o.d6], ok := widthOk e o && fsValid e.image && fsDir e.image }

/-- VL counts whole rows of 32 that the instruction admits (R234, R243). -/
def rowsOk (e : QEntry) : Bool := e.vl.toNat % 32 == 0 && e.gb.toNat + e.vl.toNat / 32 ≤ 32
def latEw (e : QEntry) (o : XOps) : Bool := ewBits e.vtype == (latFmt o.q).bits

/-- Operands and checks of the X layout. -/
def xInfo (e : QEntry) (o : XOps) : XKind → QInfo
  | .ldws =>
    let vl := e.vl.toNat
    match o.q.toNat with
    | 2 => { src := [e.a o.a6], ok := ewBits e.vtype == 16 && vl % 32 == 0 && vl ≤ 1024 }
    | 3 => { src := [e.a o.a6], ok := ewBits e.vtype == 32 && vl % 32 == 0 && vl ≤ 1024 }
    | 4 => { src := [e.a o.a6], ok := ewBits e.vtype == 8 && vl % 16 == 0 && vl ≤ 512 }
    | _ => {}
  | .mstream => { src := [e.a o.a6], ok := latEw e o && rowsOk e }
  | .mop => { src := [e.a o.a6, e.b o.b6], ok := latEw e o && e.vl.toNat % 32 == 0 }
  | .axt => { dst := [e.d o.d6], ok := latEw e o && e.vl.toNat ≤ 32 && e.gb.toNat ≤ 31 }
  | .trow => { src := [e.a o.a6], ok := ewBits e.vtype == 8 * trSize o && rowsOk e }
  | .tcol => { dst := [e.d o.d6], ok := ewBits e.vtype == 8 * trSize o && rowsOk e }
  | _ => {}

/-- Operands and checks of VCOLL (R422). -/
def kInfo (e : QEntry) (o : KOps) : QInfo :=
  let n := (grpCount e.image).toNat
  let spread := o.kind.toNat == 0 || o.kind.toNat == 1 || o.kind.toNat == 4
  { dst := [e.d o.d6], src := [e.a o.a6],
    ok := grpValid e.image && 8 * (collFmt o.t).bytes == ewBits e.vtype && (!spread || e.vl.toNat % n == 0) }

def QEntry.info (e : QEntry) (split : BitVec 2) : QInfo :=
  match qForm e.instr with
  | .no => {}
  | .v o k => vInfo e o k
  | .m o k => mInfo e o split k
  | .x o k => xInfo e o k
  | .coll o => kInfo e o

/-- R171 on one operand. -/
def VOp.fits (v : VOp) (split : BitVec 2) : Bool :=
  v.opnd.reg.toNat % v.opnd.grp == 0 && v.opnd.reg.toNat + v.opnd.grp ≤ nregsOf split

/-- Two groups share a register. -/
def Opnd.overlaps (x y : Opnd) : Bool :=
  x.reg.toNat < y.reg.toNat + y.grp && y.reg.toNat < x.reg.toNat + x.grp

/-- R190 on one destination and one source. -/
def overlapOk (elem : Bool) (d s : VOp) : Bool :=
  !d.opnd.overlaps s.opnd || (elem && d.opnd == s.opnd && !s.modified)

/-- The checks of R171, R189 and R190 and the form's own. -/
def QInfo.passes (q : QInfo) (split : BitVec 2) : Bool :=
  q.ok && (q.dst ++ q.src).all (fun v => v.late || v.fits split) && q.dst.all fun d => q.src.all fun s => overlapOk q.elem d s

/-- Operands that the instruction reads: its sources, and a destination whose old value it reads. -/
def QInfo.reads (q : QInfo) : List VOp := q.src ++ q.dst.filter fun v => v.rmw

/-- The elements, or the set indices, of an instruction (R187, R299). -/
def QEntry.span (e : QEntry) (q : QForm) : Nat := if q.plural then e.setCount else e.vl.toNat

/-- Elements of an element group: 256 bytes of the widest vector operand; the set indices of a channel group (R187, R294, R301). -/
def groupLen (q : QForm) (inf : QInfo) : Nat :=
  if q.plural then 16
  else 256 / ((inf.dst ++ inf.src).foldl (fun w v => max w (v.opnd.ew / 8)) 1)

/-- The instruction may stop between two of its elements (R187). A CHRUN places all its commands at once (R319), and LDP.first takes
one index (R307). -/
def divides (i : Instr) (q : QForm) : Bool :=
  !q.whole && match i with
  | .chrun _ => false
  | .ldpFirst _ => false
  | _ => true

/-! ### Active elements of a destination (R259) -/

/-- Elements of the destination register that an instruction writes as active ones, by `t` as it stands before the effect. -/
def dstActive (t : Thread) (e : QEntry) (k : Nat) : Bool :=
  match qForm e.instr with
  | .v o kd =>
    match kd with
    | .merge _ => true
    | .slideu => e.gb.toNat ≤ k && t.active (vGov o) k
    | .compress => k < ((List.range e.vl.toNat).filter fun j => t.maskBit o.b.toNat j).length
    | .ins => k == e.gb.toNat
    | .red | .fred => k == 0
    | .fredms => k < 2
    | _ => t.active (vGov o) k
  | .x o _ => t.active (tileGov o.pre) k
  | .coll o =>
    let n := (grpCount e.image).toNat
    if o.kind = 0 then k < e.vl.toNat / n else true
  | _ => true

end
end Sys2Proof.Machine
end

