-- ==== Sys2Proof/Machine/Rate.lean ====
section
/-! DEFINITION. The issue limit of the lattices: array cycles, credits and the partition's rate
(spec/09_lattice_and_accumulators.md R246; spec/21_power_host_and_management.md R455, R456). -/

namespace Sys2Proof.Machine
open Sys2Proof

noncomputable section

/-- Arithmetic cycles since power-on: one for every two thread cycles (R18). -/
def State.arithCycle (s : State) : Nat := s.cyc / 2

/-- The LAT-major instructions (R225). -/
def isLat (q : QForm) : Bool :=
  match q with
  | .x _ k => k == .aalloc || k == .afree || k == .hand || k == .ldws || k == .mstream || k == .mop || k == .axt || k == .image
  | _ => false

/-- Array cycles of a lattice instruction that starts now (R246). -/
def arrayCycles (s : State) (t : Thread) (e : QEntry) : Nat :=
  let rows := (e.vl.toNat - e.vstart.toNat) / 32
  match qForm e.instr with
  | .x o .mstream =>
    let f32 := o.q.getLsbD 0 || ((t.hnd o.d.toNat).any fun b => b.activePlane.2 == 1)
    if f32 then 4 * rows else rows
  | .x o .mop => if o.q.getLsbD 0 then 4 * rows else rows
  | .x _ .ldws => 1
  | .x _ .hand => (match e.instr with
    | .aclr _ => 32
    | _ => 1)
  | .x _ .axt => 4
  | .x _ .image => 192
  | .x _ .aalloc => if (s.facet t.facet).waiters.isEmpty && !(freeTiles s t.facet).isEmpty then 32 else 0
  | _ => 0

/-- The full rate and the ramp time in arithmetic cycles (R455, R456). -/
def Partition.fullRate (p : Partition) : Rat := (fld p.ishape.toNat 0 8 + 1 : Nat) / 256
def Partition.rampCycles (p : Partition) : Nat := fld p.ishape.toNat 16 10 * 800

/-- The part of the full rate that `n` cycles of a rise from `r` over `ramp` cycles add up to. -/
def rampSum (r : Rat) (ramp n : Nat) : Rat :=
  let step : Rat := 7 / (8 * (ramp : Rat))
  let m := min n ((1 - r) / step).floor.toNat
  m * r + step * ((m * (m + 1) / 2 : Nat) : Rat) + ((n - m : Nat) : Rat)

/-- What `n` cycles add to a credit while the partition is idle, and while it is not. -/
def Partition.idleEarns (p : Partition) (n : Nat) : Rat := n * p.fullRate * (if p.rampCycles = 0 then 1 else 1 / 8)
def Partition.busyEarns (p : Partition) (n : Nat) : Rat :=
  p.fullRate * (if p.rampCycles = 0 then (n : Rat) else rampSum p.rate p.rampCycles n)

/-- The rate after `n` cycles that are not idle. -/
def Partition.rateAfter (p : Partition) (n : Nat) : Rat :=
  if p.rampCycles = 0 then 1 else min 1 (p.rate + 7 / (8 * (p.rampCycles : Rat)) * n)

/-- The partition with its credits, its rate and its idleness as they stand at arithmetic cycle `now`: idle once no lattice has
performed an array cycle for 1 µs (R456). -/
def Partition.settle (p : Partition) (now : Nat) : Partition :=
  let n := now - p.creditAt
  let quiet := p.lastArray + 800
  let busy := if p.idle then 0 else min n (quiet - p.creditAt)
  let gain := p.busyEarns busy + p.idleEarns (n - busy)
  let up (c : Rat) : Rat := min 32 (c + gain)
  let idle := p.idle || quiet ≤ now
  { p with idle := idle, rate := if idle then 1 / 8 else p.rateAfter busy, creditAt := max now p.creditAt,
           credits := p.credits.map fun c => (c.1, up c.2), credit := up p.credit }

/-- The credit of a facet's lattice. -/
def Partition.creditOf (p : Partition) (f : Nat) : Rat := ((p.credits.find? fun c => c.1 == f).map Prod.snd).getD p.credit

/-- A lattice of the partition performs `n` array cycles from `now` on (R456). -/
def Partition.charge (p : Partition) (now f n : Nat) : Partition :=
  let p := p.settle now
  { p with idle := p.idle && n == 0, lastArray := if n = 0 then p.lastArray else max p.lastArray (now + n - 1),
           credits := (f, p.creditOf f - n) :: p.credits.filter fun c => c.1 != f }

/-- The credit of a thread's lattice lets a lattice instruction start. -/
def creditReady (s : State) (t : Thread) : Bool := 0 ≤ ((s.partOf t).settle s.arithCycle).creditOf t.facet

/-- A partition's rate and credits are brought up to date. -/
def settlePart (s : State) (pn : Nat) : State := s.setPart pn ((s.parts.toList.getD pn {}).settle s.arithCycle)

/-- The lattice of a thread performs `n` array cycles. -/
def chargeLattice (s : State) (t : Thread) (n : Nat) : State :=
  s.setPart t.part ((s.partOf t).charge s.arithCycle t.facet n)

/-- Places of a slot-in-facet after the one served last, in rotation (R165, R168). -/
def rotation (last j : Nat) : Nat := (j + 3 - last) % 4

end
end Sys2Proof.Machine
end

