-- ==== Sys2Proof/Machine/VAtomic.lean ====
section
/-! DEFINITION. The update of one location by an atomic, and vector atomics (spec/16_atomics_and_synchronisation.md R374 to R380). -/

namespace Sys2Proof.Machine
open Sys2Proof

noncomputable section

/-- The operations of an atomic (R63, R373). -/
inductive AOp where
  | add | min | max | and | or | xor | swap | cas
  deriving DecidableEq, Repr

/-- The width in bytes of an atomic's type code: 2, 6 and 9 are 4 bytes, 3 and 7 are 8 (R374). -/
def amoBytes (f : BitVec 4) : Nat := if f = 3 ∨ f = 7 then 8 else 4

/-- The new value of a location that holds `old`, with flags: operand `x`, comparison value `c` of cas (R374, R375). -/
def amoNew (op : AOp) (f : BitVec 4) (old x c : Nat) (mode : Rm) (h : Nat) : Nat × Flg :=
  let n := 8 * amoBytes f
  let fl := f = 9
  let lt (a b : Nat) : Bool := readInt (f.toNat < 4) n a < readInt (f.toNat < 4) n b
  match op with
  | .add =>
    if fl then let r := fAdd .f32 old x mode h; (r.bits, r.fl) else ((old + x) % 2 ^ n, 0)
  | .min =>
    if fl then let r := fMinMax .f32 false old x; (r.bits, r.fl) else (if lt x old then x else old, 0)
  | .max =>
    if fl then let r := fMinMax .f32 true old x; (r.bits, r.fl) else (if lt old x then x else old, 0)
  | .and => (old &&& x, 0)
  | .or => (old ||| x, 0)
  | .xor => (old ^^^ x, 0)
  | .swap => (x, 0)
  | .cas => (if old = c then x else old, 0)

/-- Old value as the register receives it: sign-extended for i types, zero-extended for w and f32 (R374). -/
def amoOld (f : BitVec 4) (old : Nat) : BitVec 64 :=
  if f.toNat < 4 then sextWord (8 * amoBytes f) old else zextWord (8 * amoBytes f) old

/-! ### VAMO and VAMOO -/

def vamoAddr (t : Thread) (e : QEntry) (o : MOps) (k : Nat) : BitVec 64 :=
  e.ga + BitVec.ofNat 64 (t.el (e.opnd o.b6) k)

/-- The group of new values of a cas (R377). -/
def casOpnd (e : QEntry) (o : MOps) : Opnd := e.opnd (BitVec.ofNat 6 (o.d6.toNat + grpOf e.vtype))

/-- A sorted insertion by a key, after equal keys. -/
def insertKey (key : Nat → Nat) (k : Nat) : List Nat → List Nat
  | [] => [k]
  | j :: js => if key k < key j then k :: j :: js else j :: insertKey key k js

/-- The order of a VAMO's updates: any order, by a free key; element order where an element lies in the unit window (R372, R379;
log entry 6). -/
def vamoOrder (ordered : Bool) (ctr : Nat) (ks : List Nat) : List Nat :=
  if ordered then ks else ks.foldl (fun acc k => insertKey (Config.amoKey ctr) k acc) []

/-- Update the locations of the elements in the given order; each old value goes to its element (R378). -/
def vamoRun (op : AOp) (e : QEntry) (o : MOps) (src : Thread) : List (Nat × Loc) → State → Thread → State × Thread
  | [], s, t => (s, t)
  | (k, l) :: ks, s, t =>
    let n := amoBytes o.f
    let d := e.opnd o.d6
    let x := src.el d k
    let old := loadHome s l n
    let new := if op = .cas then src.el (casOpnd e o) k else x
    let r := amoNew op o.f old new x e.mode (e.hash k)
    vamoRun op e o src ks (storeHome s src.part l n r.1) ((t.setEl d k old).raise r.2)

/-- The elements with the places that they update. -/
def vamoPlaces (x : Ahead) (t : Thread) (e : QEntry) (o : MOps) (ks : List Nat) : List (Nat × Loc) :=
  ks.filterMap fun k =>
    match (locateAt x.pages x.st (e.who t) (vamoAddr t e o k) .atomic false).1 with
    | .at l => some (k, l)
    | _ => none

/-- The place lies in a unit window. -/
def Loc.inUnit : Loc → Bool
  | .mem key => !isShared key
  | _ => false

/-- VAMO and VAMOO (R378 to R380). -/
def effVamo (ordered : Bool) (op : AOp) (s : State) (t : Thread) (e : QEntry) (o : MOps) (limit : Nat) : Eff :=
  let x := runAhead s t e ((activeFrom t e o e.vl.toNat).map fun k => ⟨k, vamoAddr t e o k, amoBytes o.f, .atomic, false⟩)
  if x.waits then .hold x.st t e.vstart.toNat else
  let stop := x.stop limit
  let ks := activeFrom t e o stop
  let unit := (vamoPlaces x t e o ks).any fun p => p.2.inUnit
  let d := e.opnd o.d6
  let r := vamoRun op e o t (vamoPlaces x t e o (vamoOrder (ordered || unit) x.st.ctr ks)) x.st t
  let u := if maskZero e.vtype then
      (elems e.vstart.toNat stop).foldl (fun u k => if t.active (mGov o) k then u else u.setEl d k 0) r.2
    else r.2
  (Eff.done r.1 (if stop = e.vl.toNat then putTail u d (tailZero e.vtype) stop else u)).after e x limit

end
end Sys2Proof.Machine
end

