-- ==== Sys2Proof/Machine/VInt.lean ====
section
/-! DEFINITION. Integer and fixed-point vector operations (spec/08_lanes_and_vector_operations.md R198 to R202). -/

namespace Sys2Proof.Machine
open Sys2Proof

noncomputable section

/-- An integer result of `n` bits with SAT where the value was clamped. -/
abbrev IntOp := (signed : Bool) → (n a b d : Nat) → (xm : XMode) → Nat × Flg

/-- A result that wraps (R86). -/
def wrapping (f : Int → Int → Int → Int) : IntOp := fun sg n a b d _ =>
  (wrapTo n (f (readInt sg n a) (readInt sg n b) (readInt sg n d)), 0)

/-- A result that saturates (R87). -/
def clamping (f : Int → Int → Int) : IntOp := fun sg n a b _ _ =>
  let r := saturate sg n (f (readInt sg n a) (readInt sg n b))
  (wrapTo n r.1, flIf r.2 flSAT)

def opAdd : IntOp := wrapping fun a b _ => a + b
def opSub : IntOp := wrapping fun a b _ => a - b
def opRsub : IntOp := wrapping fun a b _ => b - a
def opMul : IntOp := wrapping fun a b _ => a * b
def opMulh : IntOp := fun sg n a b _ _ => (wrapTo n (readInt sg n a * readInt sg n b / 2 ^ n), 0)
def opMacc : IntOp := wrapping fun a b d => d + a * b
def opNmsac : IntOp := wrapping fun a b d => d - a * b
def opSadd : IntOp := clamping fun a b => a + b
def opSsub : IntOp := clamping fun a b => a - b
def opAvg : IntOp := fun sg n a b _ xm => (wrapTo n (roundoff (readInt sg n a + readInt sg n b) 1 xm), 0)
def opMin : IntOp := fun sg n a b _ _ => (if readInt sg n b < readInt sg n a then b else a, 0)
def opMax : IntOp := fun sg n a b _ _ => (if readInt sg n a < readInt sg n b then b else a, 0)
def opAnd : IntOp := fun _ _ a b _ _ => (a &&& b, 0)
def opOr : IntOp := fun _ _ a b _ _ => (a ||| b, 0)
def opXor : IntOp := fun _ _ a b _ _ => (a ^^^ b, 0)
def opMv : IntOp := fun _ _ _ b _ _ => (b, 0)
/-- Shifts: the count is b modulo EW, whatever its sign (R198). -/
def opShl : IntOp := fun _ n a b _ _ => (a * 2 ^ (b % n) % 2 ^ n, 0)
def opShr : IntOp := fun _ n a b _ _ => (a / 2 ^ (b % n), 0)
def opSar : IntOp := fun _ n a b _ _ => (wrapTo n (toSigned n a / 2 ^ (b % n)), 0)

def QEntry.xmode (e : QEntry) : XMode := XMode.ofCode e.xrm.toNat

/-- An operation of VIA or VIB on operands of one width (R198). -/
def vInt (op : IntOp) (kind : Src2) (s : State) (t : Thread) (e : QEntry) (o : VOps) (limit : Nat) : Eff :=
  let d := e.opnd o.d6
  let a := e.opnd o.a6
  elementwise s t e (vGov o) d limit fun k =>
    op (!o.e.getLsbD 2) d.ew (t.srcEl a (preMa o.pre) e.vl.toNat k) (second t e o kind (e.opnd o.b6) k) (t.el d k) e.xmode

/-- A shift, whose scalar count is the whole of gB (R191, R198). -/
def vShift (op : IntOp) (kind : Src2) (s : State) (t : Thread) (e : QEntry) (o : VOps) (limit : Nat) : Eff :=
  let d := e.opnd o.d6
  let a := e.opnd o.a6
  elementwise s t e (vGov o) d limit fun k =>
    op (!o.e.getLsbD 2) d.ew (t.srcEl a (preMa o.pre) e.vl.toNat k) (secondCount t e o kind (e.opnd o.b6) k) (t.el d k) e.xmode

/-- A widening operation: sources extended by E[2], the low 2·EW bits kept (R199). -/
def vWiden (f : Int → Int → Int → Int) (kind : Src2) (s : State) (t : Thread) (e : QEntry) (o : VOps) (limit : Nat) : Eff :=
  let d := e.wide o.d6
  let a := e.opnd o.a6
  let sg := !o.e.getLsbD 2
  elementwise s t e (vGov o) d limit fun k =>
    (wrapTo d.ew (f (readInt sg a.ew (t.srcEl a (preMa o.pre) e.vl.toNat k))
      (readInt sg a.ew (second t e o kind (e.opnd o.b6) k)) (Int.ofNat (t.el d k))), 0)

/-- VNSHR: shift right with XRM rounding, then clamp to the type of E (R200). -/
def vNshr (kind : Src2) (s : State) (t : Thread) (e : QEntry) (o : VOps) (limit : Nat) : Eff :=
  let d := e.opnd o.d6
  let a := e.wide o.a6
  let sg := !o.e.getLsbD 2
  elementwise s t e (vGov o) d limit fun k =>
    let n := secondCount t e o kind (e.opnd o.b6) k % a.ew
    let r := saturate sg d.ew (roundoff (readInt sg a.ew (t.srcEl a (preMa o.pre) e.vl.toNat k)) n e.xmode)
    (wrapTo d.ew r.1, flIf r.2 flSAT)

/-- VMERGE: the governing mask selects, and MP plays no part (R201). -/
def vMerge (kind : Src2) (s : State) (t : Thread) (e : QEntry) (o : VOps) (limit : Nat) : Eff :=
  let d := e.opnd o.d6
  let a := e.opnd o.a6
  elementwise s t e none d limit fun k =>
    (if t.active (vGov o) k then second t e o kind (e.opnd o.b6) k else t.srcEl a (preMa o.pre) e.vl.toNat k, 0)

/-- The relation of a condition code on integers (R56). -/
def intCond (cond : Nat) (a b : Int) : Bool :=
  if cond = 0 then a == b else if cond = 1 then a != b else if cond = 2 then a < b
  else if cond = 3 then a ≤ b else if cond = 4 then b < a else b ≤ a

/-- VCMP (R202). -/
def vCmp (cond : Nat) (kind : Src2) (s : State) (t : Thread) (e : QEntry) (o : VOps) (limit : Nat) : Eff :=
  let a := e.opnd o.a6
  let sg := !o.e.getLsbD 2
  maskwise s t e (vGov o) o.d.toNat limit fun k =>
    (intCond cond (readInt sg a.ew (t.srcEl a (preMa o.pre) e.vl.toNat k))
      (readInt sg a.ew (second t e o kind (e.opnd o.b6) k)), 0)

end
end Sys2Proof.Machine
end

