-- ==== Sys2Proof/Machine/VMask.lean ====
section
/-! DEFINITION. Mask instructions, permutations and VRECONF (spec/08_lanes_and_vector_operations.md R206 to R213;
spec/07_vector_register_storage.md R181). -/

namespace Sys2Proof.Machine
open Sys2Proof

noncomputable section

/-- Write mask D from a rule on bits, as R202 gives (R206). -/
def maskRule (s : State) (t : Thread) (e : QEntry) (d : Reg) (f : Nat → Bool) : Eff :=
  let v := maskResult (t.mask d.toNat) e.vstart.toNat e.vl.toNat (maskZero e.vtype) (tailZero e.vtype) (fun _ => true) f
  .done s (t.setMask d.toNat v)

/-- MAND, MOR, MXOR (R206). -/
def mask2 (op : Bool → Bool → Bool) (s : State) (t : Thread) (e : QEntry) (o : VOps) : Eff :=
  maskRule s t e o.d fun k => op (t.maskBit o.a.toNat k) (t.maskBit o.b.toNat k)

/-- MNOT (R206). -/
def effMnot (s : State) (t : Thread) (e : QEntry) (o : VOps) : Eff :=
  maskRule s t e o.d fun k => !t.maskBit o.a.toNat k

/-- Active elements below VL whose bit of mask A is set (R206). -/
def setBits (t : Thread) (e : QEntry) (o : VOps) : List Nat :=
  (List.range e.vl.toNat).filter fun k => t.active (vGov o) k && t.maskBit o.a.toNat k

/-- A result that the commit writes to a general register (R192). -/
def toGeneral (s : State) (t : Thread) (e : QEntry) (v : BitVec 64) : Eff :=
  match t.queue.find? (fun q => q.seq == e.seq) with
  | some _ => .done s { t with queue := t.queue.map fun q => if q.seq = e.seq then { q with result := some v } else q }
  | none => .done s t

/-- MPOPC (R206). -/
def effMpopc (s : State) (t : Thread) (e : QEntry) (o : VOps) : Eff :=
  toGeneral s t e (BitVec.ofNat 64 (setBits t e o).length)

/-- MFFS: the least set bit, or −1 (R206). -/
def effMffs (s : State) (t : Thread) (e : QEntry) (o : VOps) : Eff :=
  toGeneral s t e (match setBits t e o with
    | k :: _ => BitVec.ofNat 64 k
    | [] => BitVec.allOnes 64)

/-- MSET by mode (R207). -/
def effMset (s : State) (t : Thread) (e : QEntry) (o : VOps) : Eff :=
  let first := (List.range e.vl.toNat).find? fun k => t.maskBit o.a.toNat k
  maskRule s t e o.d fun k =>
    if o.e = 0 then true
    else if o.e = 1 then false
    else match first with
      | none => true
      | some f => if o.e = 2 then k < f else k ≤ f

/-- VRECONF, as one step: all storage zero and clean, the new split in force (R181). -/
def effVreconf (s : State) (t : Thread) (_e : QEntry) (o : VOps) : Eff :=
  .done s { t with vreg := [], hw := Vector.replicate 64 0, splitV := o.e.setWidth 2 }

/-! ### Permutations -/

/-- VSLIDEU: elements below k count as masked off (R209). -/
def effVslideu (s : State) (t : Thread) (e : QEntry) (o : VOps) (limit : Nat) : Eff :=
  let d := e.opnd o.d6
  let a := e.opnd o.a6
  let n := e.gb.toNat
  let u := (elems e.vstart.toNat limit).foldl (fun u k =>
    let act := t.active (vGov o) k && n ≤ k
    putEl u d (maskZero e.vtype) act k (if act then t.el a (k - n) else 0)) t
  .done s (if limit = e.vl.toNat then putTail u d (tailZero e.vtype) limit else u)

/-- VSLIDED: zero at and beyond VL (R209). -/
def effVslided (s : State) (t : Thread) (e : QEntry) (o : VOps) (limit : Nat) : Eff :=
  let a := e.opnd o.a6
  let n := e.gb.toNat
  elementwise s t e (vGov o) (e.opnd o.d6) limit fun k => (if k + n < e.vl.toNat then t.el a (k + n) else 0, 0)

/-- VGATHER: zero for an index at or beyond VLMAX (R210). -/
def effVgather (s : State) (t : Thread) (e : QEntry) (o : VOps) (limit : Nat) : Eff :=
  let a := e.opnd o.a6
  let b := e.opnd o.b6
  elementwise s t e (vGov o) (e.opnd o.d6) limit fun k =>
    let i := t.el b k
    (if i < vlmax e.vtype t.splitV then t.el a i else 0, 0)

/-- VCOMPRESS (R211). -/
def effVcompress (s : State) (t : Thread) (e : QEntry) (o : VOps) : Eff :=
  let d := e.opnd o.d6
  let a := e.opnd o.a6
  let sel := (List.range e.vl.toNat).filter fun k => t.maskBit o.b.toNat k
  let u := (List.range e.vl.toNat).foldl (fun u k =>
    putEl u d (maskZero e.vtype) (k < sel.length) k (t.el a (sel.getD k 0))) t
  .done s (putTail u d (tailZero e.vtype) e.vl.toNat)

/-- VIOTA (R212). -/
def effViota (s : State) (t : Thread) (e : QEntry) (o : VOps) (limit : Nat) : Eff :=
  let d := e.opnd o.d6
  elementwise s t e (vGov o) d limit fun k =>
    (((List.range k).filter fun j => t.maskBit o.a.toNat j && t.active (vGov o) j).length % 2 ^ d.ew, 0)

/-- VEXT (R213). -/
def effVext (s : State) (t : Thread) (e : QEntry) (o : VOps) : Eff :=
  let a := e.opnd o.a6
  let v := if e.gb.toNat < e.vl.toNat then t.el a e.gb.toNat else 0
  toGeneral s t e (if o.e.getLsbD 2 then zextWord a.ew v else sextWord a.ew v)

/-- VINS (R213). -/
def effVins (s : State) (t : Thread) (e : QEntry) (o : VOps) : Eff :=
  let d := e.opnd o.d6
  let u := (List.range e.vl.toNat).foldl (fun u k =>
    putEl u d (maskZero e.vtype) (k == e.gb.toNat) k (e.ga.toNat % 2 ^ d.ew)) t
  .done s (putTail u d (tailZero e.vtype) e.vl.toNat)

end
end Sys2Proof.Machine
end

