-- ==== Sys2Proof/Machine/VRed.lean ====
section
/-! DEFINITION. Reductions (spec/08_lanes_and_vector_operations.md R214 to R216). -/

namespace Sys2Proof.Machine
open Sys2Proof

noncomputable section

/-- Elements of the destination beyond the result count as masked off, those from VL on as tail (R214). -/
def redWrite (t : Thread) (e : QEntry) (d : Opnd) (vals : List Nat) : Thread :=
  let u := (List.range e.vl.toNat).foldl (fun u k =>
    putEl u d (maskZero e.vtype) (k < vals.length) k (vals.getD k 0)) t
  putTail u d (tailZero e.vtype) e.vl.toNat

/-- The three cases of R214: VL = 0, no active element, and the combination `f` of the initial operand's elements with the active
elements of vA. -/
def reduce (s : State) (t : Thread) (e : QEntry) (o : VOps) (nres : Nat)
    (f : List Nat → List Nat → List Nat × Flg) : Eff :=
  let d := e.opnd o.d6
  let a := e.opnd o.a6
  let b := e.opnd o.b6
  let act := (List.range e.vl.toNat).filter fun k => t.active (vGov o) k
  if e.vl = 0 then .done s { t with vempty := true }
  else
    let init := (List.range nres).map fun k => t.el b k
    if act.isEmpty then .done s { redWrite t e d init with vempty := true }
    else
      let r := f init (act.map fun k => t.el a k)
      .done s ((redWrite t e d r.1).raise r.2)

/-- VREDSUM (R214). -/
def effVredsum (s : State) (t : Thread) (e : QEntry) (o : VOps) : Eff :=
  let n := ewBits e.vtype
  reduce s t e o 1 fun i xs => ([xs.foldl (fun acc x => (acc + x) % 2 ^ n) (i.headD 0)], 0)

/-- VREDMAX and VREDMIN (R214). -/
def effVredMinMax (isMax : Bool) (s : State) (t : Thread) (e : QEntry) (o : VOps) : Eff :=
  let n := ewBits e.vtype
  let sg := !o.e.getLsbD 2
  reduce s t e o 1 fun i xs =>
    ([xs.foldl (fun acc x =>
      if (if isMax then readInt sg n acc < readInt sg n x else readInt sg n x < readInt sg n acc) then x else acc) (i.headD 0)], 0)

/-- VFREDSUM: the exact sum, extracted once (R215). -/
def effVfredsum (s : State) (t : Thread) (e : QEntry) (o : VOps) : Eff :=
  let f := vfFmt o.e
  reduce s t e o 1 fun i xs =>
    let ws := i ++ xs
    let acc := ws.foldl (fun (acc : Acc) w => acc.addVal (decodeF f w) false) Acc.zero
    let r := acc.extract f e.mode (srHash e.seed 0 0)
    ([r.bits], r.fl ||| snanFl f ws)

/-- VFREDMAX and VFREDMIN (R214, R127). -/
def effVfredMinMax (isMax : Bool) (s : State) (t : Thread) (e : QEntry) (o : VOps) : Eff :=
  let f := vfFmt o.e
  reduce s t e o 1 fun i xs =>
    let r := xs.foldl (fun (acc : Nat × Flg) x =>
      let m := fMinMax f isMax acc.1 x
      (m.bits, acc.2 ||| m.fl)) (i.headD 0, 0)
    ([r.1], r.2)

/-- VFREDMS: the fold of pairs from left to right (R216). -/
def effVfredms (s : State) (t : Thread) (e : QEntry) (o : VOps) : Eff :=
  reduce s t e o 2 fun i xs =>
    let r := xs.foldl (fun (acc : MsPair × Flg) x =>
      let m := msCombine acc.1 ⟨x, 0x3F800000⟩
      (m.1, acc.2 ||| m.2)) (⟨i.getD 0 0, i.getD 1 0⟩, 0)
    ([r.1.m, r.1.s], r.2)

end
end Sys2Proof.Machine
end

