-- ==== Sys2Proof/Machine/Effect.lean ====
section
/-! DEFINITION. What each queued instruction does when it starts: one arm per row of the vector, lattice, tile-move and fabric
majors (spec/08 to spec/12, spec/16, spec/19). -/

namespace Sys2Proof.Machine
open Sys2Proof

noncomputable section

/-- VFENCE.D: under determinism it waits for the thread's drain (R383, R406). -/
def effVfenceD (s : State) (t : Thread) (_e : QEntry) : Eff :=
  if t.draining then .hold s t 0
  else if t.det then .started s { t with draining := true, drainNo := t.drainNo + 1 } else .done s t


/-- The effect of a queued instruction on the vector side, performed up to element `limit`. -/
def effect (s : State) (t : Thread) (e : QEntry) (limit : Nat) : Eff :=
  match e.instr with
  | .vaddVv o => vInt opAdd .vec s t e o limit
  | .vaddVg o => vInt opAdd .gen s t e o limit
  | .vaddVi o => vInt opAdd .imm s t e o limit
  | .vsubVv o => vInt opSub .vec s t e o limit
  | .vsubVg o => vInt opSub .gen s t e o limit
  | .vrsubVg o => vInt opRsub .gen s t e o limit
  | .vrsubVi o => vInt opRsub .imm s t e o limit
  | .vmulVv o => vInt opMul .vec s t e o limit
  | .vmulVg o => vInt opMul .gen s t e o limit
  | .vmulhVv o => vInt opMulh .vec s t e o limit
  | .vmulhVg o => vInt opMulh .gen s t e o limit
  | .vmaccVv o => vInt opMacc .vec s t e o limit
  | .vmaccVg o => vInt opMacc .gen s t e o limit
  | .vnmsacVv o => vInt opNmsac .vec s t e o limit
  | .vnmsacVg o => vInt opNmsac .gen s t e o limit
  | .vwaddVv o => vWiden (fun a b _ => a + b) .vec s t e o limit
  | .vwaddVg o => vWiden (fun a b _ => a + b) .gen s t e o limit
  | .vwmulVv o => vWiden (fun a b _ => a * b) .vec s t e o limit
  | .vwmulVg o => vWiden (fun a b _ => a * b) .gen s t e o limit
  | .vwmaccVv o => vWiden (fun a b d => d + a * b) .vec s t e o limit
  | .vwmaccVg o => vWiden (fun a b d => d + a * b) .gen s t e o limit
  | .vnshrVv o => vNshr .vec s t e o limit
  | .vnshrVg o => vNshr .gen s t e o limit
  | .vnshrVi o => vNshr .imm s t e o limit
  | .vsaddVv o => vInt opSadd .vec s t e o limit
  | .vsaddVg o => vInt opSadd .gen s t e o limit
  | .vsaddVi o => vInt opSadd .imm s t e o limit
  | .vssubVv o => vInt opSsub .vec s t e o limit
  | .vssubVg o => vInt opSsub .gen s t e o limit
  | .vavgVv o => vInt opAvg .vec s t e o limit
  | .vavgVg o => vInt opAvg .gen s t e o limit
  | .vminVv o => vInt opMin .vec s t e o limit
  | .vminVg o => vInt opMin .gen s t e o limit
  | .vmaxVv o => vInt opMax .vec s t e o limit
  | .vmaxVg o => vInt opMax .gen s t e o limit
  | .vandVv o => vInt opAnd .vec s t e o limit
  | .vandVg o => vInt opAnd .gen s t e o limit
  | .vandVi o => vInt opAnd .imm s t e o limit
  | .vorVv o => vInt opOr .vec s t e o limit
  | .vorVg o => vInt opOr .gen s t e o limit
  | .vorVi o => vInt opOr .imm s t e o limit
  | .vxorVv o => vInt opXor .vec s t e o limit
  | .vxorVg o => vInt opXor .gen s t e o limit
  | .vxorVi o => vInt opXor .imm s t e o limit
  | .vshlVv o => vShift opShl .vec s t e o limit
  | .vshlVg o => vShift opShl .gen s t e o limit
  | .vshlVi o => vShift opShl .imm s t e o limit
  | .vshrVv o => vShift opShr .vec s t e o limit
  | .vshrVg o => vShift opShr .gen s t e o limit
  | .vshrVi o => vShift opShr .imm s t e o limit
  | .vsarVv o => vShift opSar .vec s t e o limit
  | .vsarVg o => vShift opSar .gen s t e o limit
  | .vsarVi o => vShift opSar .imm s t e o limit
  | .vmergeVv o => vMerge .vec s t e o limit
  | .vmergeVg o => vMerge .gen s t e o limit
  | .vmergeVi o => vMerge .imm s t e o limit
  | .vmvVv o => vInt opMv .vec s t e o limit
  | .vmvVg o => vInt opMv .gen s t e o limit
  | .vmvVi o => vInt opMv .imm s t e o limit
  | .vcmpEqVv o => vCmp 0 .vec s t e o limit
  | .vcmpEqVg o => vCmp 0 .gen s t e o limit
  | .vcmpEqVi o => vCmp 0 .imm s t e o limit
  | .vcmpNeVv o => vCmp 1 .vec s t e o limit
  | .vcmpNeVg o => vCmp 1 .gen s t e o limit
  | .vcmpNeVi o => vCmp 1 .imm s t e o limit
  | .vcmpLtVv o => vCmp 2 .vec s t e o limit
  | .vcmpLtVg o => vCmp 2 .gen s t e o limit
  | .vcmpLtVi o => vCmp 2 .imm s t e o limit
  | .vcmpLeVv o => vCmp 3 .vec s t e o limit
  | .vcmpLeVg o => vCmp 3 .gen s t e o limit
  | .vcmpLeVi o => vCmp 3 .imm s t e o limit
  | .vcmpGtVv o => vCmp 4 .vec s t e o limit
  | .vcmpGtVg o => vCmp 4 .gen s t e o limit
  | .vcmpGtVi o => vCmp 4 .imm s t e o limit
  | .vcmpGeVv o => vCmp 5 .vec s t e o limit
  | .vcmpGeVg o => vCmp 5 .gen s t e o limit
  | .vcmpGeVi o => vCmp 5 .imm s t e o limit
  | .vfaddVv o => vFp fopAdd .vec s t e o limit
  | .vfaddVg o => vFp fopAdd .gen s t e o limit
  | .vfsubVv o => vFp fopSub .vec s t e o limit
  | .vfsubVg o => vFp fopSub .gen s t e o limit
  | .vfmulVv o => vFp fopMul .vec s t e o limit
  | .vfmulVg o => vFp fopMul .gen s t e o limit
  | .vfmaVv o => vFp fopFma .vec s t e o limit
  | .vfmaVg o => vFp fopFma .gen s t e o limit
  | .vfnmaVv o => vFp fopFnma .vec s t e o limit
  | .vfnmaVg o => vFp fopFnma .gen s t e o limit
  | .vfdivVv o => vFp fopDiv .vec s t e o limit
  | .vfdivVg o => vFp fopDiv .gen s t e o limit
  | .vfsqrt o => vFp fopSqrt .imm s t e o limit
  | .vfminVv o => vFp fopMin .vec s t e o limit
  | .vfminVg o => vFp fopMin .gen s t e o limit
  | .vfmaxVv o => vFp fopMax .vec s t e o limit
  | .vfmaxVg o => vFp fopMax .gen s t e o limit
  | .vfcmpEqVv o => vFcmp 0 .vec s t e o limit
  | .vfcmpEqVg o => vFcmp 0 .gen s t e o limit
  | .vfcmpNeVv o => vFcmp 1 .vec s t e o limit
  | .vfcmpNeVg o => vFcmp 1 .gen s t e o limit
  | .vfcmpLtVv o => vFcmp 2 .vec s t e o limit
  | .vfcmpLtVg o => vFcmp 2 .gen s t e o limit
  | .vfcmpLeVv o => vFcmp 3 .vec s t e o limit
  | .vfcmpLeVg o => vFcmp 3 .gen s t e o limit
  | .vfcmpGtVv o => vFcmp 4 .vec s t e o limit
  | .vfcmpGtVg o => vFcmp 4 .gen s t e o limit
  | .vfcmpGeVv o => vFcmp 5 .vec s t e o limit
  | .vfcmpGeVg o => vFcmp 5 .gen s t e o limit
  | .vfcmpUnVv o => vFcmp 6 .vec s t e o limit
  | .vfcmpUnVg o => vFcmp 6 .gen s t e o limit
  | .mand o => mask2 (fun a b => a && b) s t e o
  | .mor o => mask2 (fun a b => a || b) s t e o
  | .mxor o => mask2 (fun a b => a != b) s t e o
  | .mnot o => effMnot s t e o
  | .mpopc o => effMpopc s t e o
  | .mffs o => effMffs s t e o
  | .mset o => effMset s t e o
  | .vreconf o => effVreconf s t e o
  | .vslideu o => effVslideu s t e o limit
  | .vslided o => effVslided s t e o limit
  | .vgather o => effVgather s t e o limit
  | .vcompress o => effVcompress s t e o
  | .viota o => effViota s t e o limit
  | .vext o => effVext s t e o
  | .vins o => effVins s t e o
  | .vredsum o => effVredsum s t e o
  | .vredmax o => effVredMinMax true s t e o
  | .vredmin o => effVredMinMax false s t e o
  | .vfredsum o => effVfredsum s t e o
  | .vfredmax o => effVfredMinMax true s t e o
  | .vfredmin o => effVfredMinMax false s t e o
  | .vfredms o => effVfredms s t e o
  | .vfcvt o => effVfcvt s t e o limit
  | .vfcvtEf o => effVfcvtEf s t e o limit
  | .vrec _ => .done s t
  | .vendrec _ => .done s t
  | .vreplay _ => .done s t
  | .aalloc o => effAalloc s t e o
  | .aallocWait o => effAallocWait s t e o
  | .afree o => effAfree s t e o
  | .aclr o => effAclr s t e o
  | .ldws o => effLdws s t e o
  | .swpl o => effSwpl s t e o
  | .mstream o => effMstream s t e o limit
  | .mopa o => effMop false s t e o limit
  | .mops o => effMop true s t e o limit
  | .axtr o => effAxt false s t e o
  | .axtc o => effAxt true s t e o
  | .asave o => effAsave s t e o
  | .aload o => effAimage false s t e o
  | .aaddi o => effAimage true s t e o
  | .trow o => effTrow s t e o limit
  | .tcol o => effTcol s t e o limit
  | .tld o => effTld s t e o
  | .tst o => effTst s t e o
  | .vld o => vLoad .unit s t e o limit
  | .vlds o => vLoad .strided s t e o limit
  | .vldx o => vLoad .indexed s t e o limit
  | .vldseg o => effVldseg s t e o limit
  | .vldff o => effVldff s t e o limit
  | .cbld o => effCbld s t e o
  | .vfill o => effVfill s t e o
  | .vst o => vStore .unit s t e o limit
  | .vsts o => vStore .strided s t e o limit
  | .vstx o => vStore .indexed s t e o limit
  | .vstseg o => effVstseg s t e o limit
  | .vspill o => effVspill s t e o
  | .ldpSum o => effLdp .sum s t e o limit
  | .ldpMax o => effLdp .max s t e o limit
  | .ldpMin o => effLdp .min s t e o limit
  | .ldpMaxsum o => effLdp .maxsum s t e o limit
  | .ldpAnd o => effLdp .and s t e o limit
  | .ldpOr o => effLdp .or s t e o limit
  | .ldpXor o => effLdp .xor s t e o limit
  | .ldpFirst o => effLdpFirst s t e o
  | .stp o => effStp s t e o limit
  | .chrun o => effChrun s t e o
  | .vamoAdd o => effVamo false .add s t e o limit
  | .vamoMin o => effVamo false .min s t e o limit
  | .vamoMax o => effVamo false .max s t e o limit
  | .vamoAnd o => effVamo false .and s t e o limit
  | .vamoOr o => effVamo false .or s t e o limit
  | .vamoXor o => effVamo false .xor s t e o limit
  | .vamoSwap o => effVamo false .swap s t e o limit
  | .vamoCas o => effVamo false .cas s t e o limit
  | .vamooAdd o => effVamo true .add s t e o limit
  | .vamooMin o => effVamo true .min s t e o limit
  | .vamooMax o => effVamo true .max s t e o limit
  | .vamooAnd o => effVamo true .and s t e o limit
  | .vamooOr o => effVamo true .or s t e o limit
  | .vamooXor o => effVamo true .xor s t e o limit
  | .vamooSwap o => effVamo true .swap s t e o limit
  | .vamooCas o => effVamo true .cas s t e o limit
  | .tmov o => effTmov s t e o
  | .tokp _ => .started s t
  | .tokw _ => .done s t
  | .vfence _ => .done s t
  | .vfenceD _ => effVfenceD s t e
  | .vcoll o => effVcoll s t e o
  | .vsend o => effVsend s t e o
  | .vrecv o => effVrecv s t e o
  | _ => .done s t

end
end Sys2Proof.Machine
end

