-- ==== Sys2Proof/Machine/Queue.lean ====
section
/-! DEFINITION. The push of a queued instruction: captures, checks, stream positions, recording
(spec/06_control_threads.md R163; spec/08_lanes_and_vector_operations.md R189, R217 to R221;
spec/10_stream_blocks_and_queues.md R255, R257, R262, R263; spec/19_fabric_collectives_and_time.md R417). -/

namespace Sys2Proof.Machine
open Sys2Proof

noncomputable section

/-! ### Stream blocks and queue registers of an operand -/

def StreamBlk.group (b : StreamBlk) : Nat := 2 ^ b.desc.grp.toNat
def StreamBlk.fmt (b : StreamBlk) : MFmt := MFmt.ofCode b.desc.fmt.toNat
def StreamBlk.writes (b : StreamBlk) : Bool := b.desc.dir == 1

/-- The stream's length (R250). -/
def StreamDesc.len (d : StreamDesc) : Nat := ((d.bounds.take d.ndim.toNat).map BitVec.toNat).foldl (· * ·) 1
def StreamBlk.len (b : StreamBlk) : Nat := b.desc.len

/-- The address of position `n` (R250). -/
def StreamDesc.addr (d : StreamDesc) (n : Nat) : BitVec 64 :=
  d.base + BitVec.ofInt 64
    (dotStride (tupleOf ((d.bounds.take d.ndim.toNat).map BitVec.toNat) n) (d.strides.map BitVec.toInt))

/-- Move POS on, never past the length (R255). -/
def StreamBlk.skip (b : StreamBlk) (n : Nat) : StreamBlk :=
  { b with pos := BitVec.ofNat 64 (min (b.pos.toNat + n) b.len) }

/-- An operand names a bound block: its group shares a register with the bound group (R254, R257; log entry 39). -/
def StreamBlk.names (b : StreamBlk) (v : VOp) : Bool := v.opnd.overlaps ⟨b.reg, b.group, 0⟩

/-- The bound group at the width of an entry's VTYPE: where a strip is delivered and where a result is taken (R258, R259). -/
def StreamBlk.opnd (b : StreamBlk) (e : QEntry) : Opnd := ⟨b.reg, b.group, ewBits e.vtype⟩

/-- R257 on one operand and one bound block that it names. The width held against FMT is VTYPE's, of a widened or narrowed operand too (log
entry 114). -/
def streamOk (e : QEntry) (dst : Bool) (b : StreamBlk) (v : VOp) : Bool :=
  grpOf e.vtype == b.group && b.fmt.pairs (ewBits e.vtype) && !v.data
    && (if dst then b.writes && !v.rmw else !b.writes)

def Thread.blocks (t : Thread) : List StreamBlk := t.streams.toList.filterMap id

/-- The blocks among `bs` that an entry's operands touch. -/
def touched (bs : List StreamBlk) (i : QInfo) : List StreamBlk :=
  bs.filter fun b => (i.dst ++ i.src).any fun v => b.names v

/-- The position captured for a field (R255, R442). -/
def posFor (bs : List StreamBlk) (i : QInfo) (f : Nat) : BitVec 64 :=
  match (i.dst ++ i.src).find? fun v => v.fld == f && (bs.any fun b => b.names v) with
  | some v => ((bs.find? fun b => b.names v).map fun b => b.pos).getD 0
  | none => 0

/-- The position at which operand `v` uses block `b`: what was captured for its field is that of the first block that an operand of the field
names, and another one has its own (R255, R442). -/
def posIn (bs : List StreamBlk) (i : QInfo) (captured : Nat → BitVec 64) (b : StreamBlk) (v : VOp) : Nat :=
  match (i.dst ++ i.src).find? fun w => w.fld == v.fld && (bs.any fun x => x.names w) with
  | some w => if (bs.find? fun x => x.names w) = some b then (captured v.fld).toNat else b.pos.toNat
  | none => b.pos.toNat

/-- The queue register that a vector register is bound to (R254). -/
def Thread.vecQ (t : Thread) (r : BitVec 6) : Option Nat :=
  (List.range 8).find? fun i => (t.qAt i).vector == some r

/-- The vector registers that are bound to queue registers, each with its queue register (R254). -/
def Thread.vecQs (t : Thread) : List (BitVec 6 × Nat) :=
  (List.range 8).filterMap fun i => (t.qAt i).vector.map fun r => (r, i)

/-- Queue registers of the operands' first registers (R263). -/
def queuesOf (t : Thread) (i : QInfo) : List (BitVec 6 × Nat) :=
  ((i.dst ++ i.src).filterMap fun v => (t.vecQ v.opnd.reg).map fun q => (v.opnd.reg, q)).dedup

/-- Entries of `VL` elements of `ew` bits; EW is VTYPE's for every operand (R263; log entry 40). -/
def qCount (vl ew : Nat) : Nat := (vl * ew + 63) / 64

/-! ### Capturing -/

/-- The register image an entry captures (R297, R309, R417). -/
def Thread.image (t : Thread) : ImgRef → BitVec 256
  | .none => 0
  | .bank r => (t.b.toList.getD r.toNat 0).setWidth 256
  | .tree r => (t.b.toList.getD r.toNat 0).setWidth 256 ||| (t.tree.setWidth 256 <<< 128) ||| (t.treeAddr.setWidth 256 <<< 192)
  | .grp r => t.n.toList.getD r.toNat 0
  | .fab r => t.f.toList.getD r.toNat 0

/-- What a captured scalar reads: the register, or the entry its queue register pops (R262). -/
def Thread.cap (t : Thread) (r : Option Reg) : BitVec 64 :=
  match r with
  | some r => t.src r
  | none => 0

/-- The bound stream blocks and queue registers that an entry touches; those of a VREPLAY are the thread's (R221, R255, R263). The entry keeps
them: one that SUNBIND.Q comes after still pops from and pushes into its queue register (R256; log entry 115). -/
def QEntry.link (e : QEntry) (t : Thread) (split : BitVec 2) : QEntry :=
  match e.instr with
  | .vreplay _ => { e with blks := t.blocks, qs := t.vecQs }
  | _ => let inf := e.info split; { e with blks := touched t.blocks inf, qs := queuesOf t inf }

/-- The entry that the push of `i` forms (R163). -/
def capture (s : State) (t : Thread) (i : Instr) : QEntry :=
  let q := qForm i
  let c := q.caps
  let e : QEntry :=
    { instr := i, pc := t.pc, ga := t.cap c.1, gb := t.cap c.2.1, gc := t.cap c.2.2, seed := t.seed, vl := t.vl,
      vtype := t.vtype, frm := t.frm, xrm := t.xrm, ver := (s.partOf t).ver, image := t.image q.img, seq := t.pushSeq }
  let e := e.link t t.splitC
  match q with
  | .v _ .replay => e
  | _ =>
    let inf := e.info t.splitC
    { e with posD := posFor e.blks inf 0, posA := posFor e.blks inf 1, posB := posFor e.blks inf 2 }

/-! ### Checks -/

/-- The handle state that the control thread keeps (R226). -/
def Thread.view (t : Thread) (h : Nat) : Bool := if h = 0 then t.view0 else t.view1
def Thread.setView (t : Thread) (h : Nat) (b : Bool) : Thread := if h = 0 then { t with view0 := b } else { t with view1 := b }

def handleOk (t : Thread) (q : QForm) : Bool :=
  match q.handle with
  | none => true
  | some h =>
    match q with
    | .x _ .aalloc => !t.view h
    | _ => t.view h

/-- R257 and R263 on every operand. -/
def boundOk (t : Thread) (e : QEntry) (i : QInfo) : Bool :=
  (t.blocks.all fun b => (i.dst.all fun v => !b.names v || streamOk e true b v) && i.src.all fun v => !b.names v || streamOk e false b v)
    && (i.dst ++ i.src).all fun v =>
      match t.vecQ v.opnd.reg with
      | some q => qCount e.vl.toNat (ewBits e.vtype) ≤ qDepth q
      | none => true

/-- An instruction that a recording refuses, or a 17th entry (R219). -/
def recordBad (t : Thread) (i : Instr) (q : QForm) : Bool :=
  t.recording &&
    (match q with
      | .v _ .vendrec => false
      | _ => q.unrecorded i || 16 ≤ t.chain.length)

/-- What else refuses the chain instructions and VRECONF (R181, R220, R221). -/
def chainOk (t : Thread) (e : QEntry) (q : QForm) : Bool :=
  match q with
  | .v _ .vendrec => t.recording
  | .v _ .replay => !t.chain.isEmpty && e.ga.toNat < 2 ^ 16
  | .v _ .reconf => t.blocks.isEmpty
  | _ => true

/-- The completion object's address of a TMOV or a CHRUN, checked at the push (R283, R319). -/
def objectAddr (e : QEntry) (q : QForm) : Option (BitVec 64) :=
  match q with
  | .x _ .tmov => some e.gb
  | .m _ .chrun => some e.gc
  | _ => none

/-- A push that empties the chain buffer waits for every VREPLAY that still runs from it (R219, R221; log entry 22). -/
def bufferBusy (t : Thread) (q : QForm) : Bool :=
  (match q with
    | .v _ .vrec => true
    | .v _ .reconf => true
    | _ => false)
  && t.queue.any fun e => match e.instr with
    | .vreplay _ => true
    | _ => false

/-! ### What a push updates -/

/-- The control thread's copies that a push updates (R73, R181, R226, R255, R417). -/
def afterPush (t : Thread) (e : QEntry) (q : QForm) (inf : QInfo) : Thread :=
  let t := match (inf.dst ++ inf.src).find? fun v => v.fld == 0 with
    | some v => { t with lvd := v.opnd.reg }
    | none => t
  let t := match q.img with
    | .grp r => { t with n := t.n.setIfInBounds r.toNat (bumpSeq (t.n.toList.getD r.toNat 0)) }
    | .fab r => { t with f := t.f.setIfInBounds r.toNat (bumpSeq (t.f.toList.getD r.toNat 0)) }
    | _ => t
  match q with
  | .x _ .afree => t.copies e false
  | .v _ .reconf => (t.copies e false).clipVl
  | .v _ .replay =>
    let adv (b : StreamBlk) : Nat :=
      e.ga.toNat * ((t.chain.filter fun c => (touched [b] (c.info t.splitC)) != []).map fun c => c.vl.toNat).sum
    { t with streams := t.streams.map fun b => b.map fun b => b.skip (adv b) }
  | _ =>
    { t with streams := t.streams.map fun b => b.map fun b =>
        if (inf.dst ++ inf.src).any (fun v => b.names v) then b.skip e.vl.toNat else b }

/-- The chain buffer and the recording flag after a push (R219, R220). -/
def afterRecord (t : Thread) (e : QEntry) (q : QForm) : Thread :=
  match q with
  | .v _ .vrec => { t with chain := [], recording := true }
  | .v _ .vendrec => { t with recording := false }
  | _ => if t.recording then { t with chain := t.chain ++ [e] } else t

end
end Sys2Proof.Machine
end

