-- ==== Sys2Proof/Machine/Start.lean ====
section
/-! DEFINITION. How a queue entry starts and performs its elements: tokens, queue registers, strips of read streams, stores of write
streams (spec/06_control_threads.md R164; spec/10_stream_blocks_and_queues.md R258 to R263;
spec/11_scratchpads_and_vector_memory.md R289, R290). -/

namespace Sys2Proof.Machine
open Sys2Proof

noncomputable section

/-! ### Tokens -/

/-- The entry stands in a frame as complete: it performs nothing any more, and its token has been pushed (R290, R449; log entry 85).
A whole instruction that has performed its step is saved with a VSTART that is not 0. -/
def QEntry.spent (e : QEntry) (q : QForm) : Bool :=
  e.popped && !e.started && (pendingReg e.instr).isNone
    && (if q.whole then e.vstart != 0 else e.span q ≤ e.vstart.toNat)

/-- The entry's token is there, and its push has a place (R289, R290). -/
def tokensReady (t : Thread) (e : QEntry) (q : QForm) : Bool :=
  (e.popped || q.waits.all fun k => 0 < t.tokens k) && (e.live || q.pushes.all fun k => t.tokens k + t.reserved k < 32)

/-- The instruction that an entry's retirement belongs to pushes its token itself: a move, a CHRUN with commands (R283, R320); a result
that the commit writes to a general register retires with the commit (R192). -/
def retiresLater (e : QEntry) (q : QForm) (engine : Bool) : Bool := engine || (pendingReg e.instr).isSome || e.spent q

/-- A token noted on the last stores that are owed for a sequence number; none where nothing is owed for it (R290). -/
def owedTok (seq : BitVec 64) (k : Nat) : List OwedStores → Option (List OwedStores)
  | [] => none
  | o :: os =>
    match owedTok seq k os with
    | some r => some (o :: r)
    | none => if o.seq = seq then some ({ o with toks := o.toks ++ [k] } :: os) else none

/-- An entry retires: its token goes into the place it holds, once the stores that its write stream owes are performed (R290). -/
def Thread.retire (t : Thread) (e : QEntry) (q : QForm) (engine : Bool) : Thread :=
  match q.pushes with
  | none => t
  | some k =>
    if retiresLater e q engine then t
    else match owedTok e.seq k t.owed with
      | some os => { t with owed := os }
      | none => t.putTok k

/-! ### Queue registers (R263) -/

/-- Operands that read a queue register, one per register, with it. -/
def queueSrcs (e : QEntry) (inf : QInfo) : List (VOp × Nat) :=
  e.qs.filterMap fun p => (inf.reads.find? fun v => v.opnd.reg == p.1).map fun v => (v, p.2)

/-- Destination operands that push into a queue register, one per register, with it. -/
def queueDsts (e : QEntry) (inf : QInfo) : List (VOp × Nat) :=
  e.qs.filterMap fun p => (inf.dst.find? fun v => v.opnd.reg == p.1).map fun v => (v, p.2)

/-- The start of the entry pops something: its token, or entries of a queue register. -/
def popsAny (e : QEntry) (q : QForm) (inf : QInfo) : Bool := q.waits.isSome || !(queueSrcs e inf).isEmpty

/-- Places in queue registers that the commit of an entry fills (R262, R263). -/
def roomFor (t : Thread) (e : QEntry) (inf : QInfo) : List (Nat × Nat) :=
  (match (pendingReg e.instr).bind t.boundQ with
    | some q => [(q, 1)]
    | none => [])
  ++ (queueDsts e inf).map fun p => (p.2, qCount e.vl.toNat (ewBits e.vtype))

/-- Those places are free, or become free by what the entry pops (R264; log entry 84). -/
def roomReady (t : Thread) (e : QEntry) (inf : QInfo) : Bool :=
  e.live || (roomFor t e inf).all fun p =>
    (t.qAt p.1).entries.length + t.heldRoom p.1 + p.2
      ≤ qDepth p.1 + (if !e.popped && (queueSrcs e inf).any (fun x => x.2 == p.1) then qCount e.vl.toNat (ewBits e.vtype) else 0)

def queuesReady (t : Thread) (e : QEntry) (inf : QInfo) : Bool :=
  e.popped || (queueSrcs e inf).all fun p => qCount e.vl.toNat (ewBits e.vtype) ≤ (t.qAt p.2).entries.length

/-- Pop the entries of one source operand into its elements. -/
def popOne (t : Thread) (e : QEntry) (p : VOp × Nat) : Thread :=
  let n := qCount e.vl.toNat (ewBits e.vtype)
  let q := t.qAt p.2
  let bytes := ((q.entries.take n).map fun x => bytesLE 8 x.toNat).flatten
  (t.setQ p.2 { q with entries := q.entries.drop n }).putRaw (p.1.opnd.byteAt t.splitV 0)
    (bytes.take (e.vl.toNat * (ewBits e.vtype / 8)))

/-- The token and the queue entries that the start of an entry pops. -/
def popStart (t : Thread) (e : QEntry) (q : QForm) (inf : QInfo) : Thread :=
  if e.popped then t
  else
    let t := match q.waits with
      | some k => t.popTok k
      | none => t
    (queueSrcs e inf).foldl (fun t p => popOne t e p) t

/-- Entries of `n` bytes each of a byte string, the last padded with zero. -/
def toEntries : Nat → List (BitVec 8) → List (BitVec 64)
  | 0, _ => []
  | n + 1, bs => BitVec.ofNat 64 (ofBytesLE (bs.take 8)) :: toEntries n (bs.drop 8)

/-- What a completed entry pushes into queue registers at its commit. -/
def queueOut (t : Thread) (e : QEntry) (inf : QInfo) : List (Nat × List (BitVec 64)) :=
  (queueDsts e inf).map fun p =>
    let len := e.vl.toNat * (ewBits e.vtype / 8)
    (p.2, toEntries (qCount e.vl.toNat (ewBits e.vtype)) (Cells.getRange 0 t.vreg (p.1.opnd.byteAt t.splitV 0) len))

/-! ### Read streams (R258) -/

/-- The position captured for an operand field (R255, R442). -/
def QEntry.posFld (e : QEntry) (f : Nat) : BitVec 64 := if f = 0 then e.posD else if f = 1 then e.posA else e.posB

/-- The position at which an entry's operand uses a block (R255, R258, R259). -/
def QEntry.posOf (e : QEntry) (inf : QInfo) (b : StreamBlk) (v : VOp) : Nat := posIn e.blks inf e.posFld b v

/-- The blocks an entry reads, each with the operand that names it and the position of its strip. -/
def streamSrcs (e : QEntry) (inf : QInfo) : List (StreamBlk × VOp × Nat) :=
  (e.blks.filter fun b => !b.writes).filterMap fun b => (inf.src.find? fun v => b.names v).map fun v => (b, v, e.posOf inf b v)

/-- The blocks an entry writes, likewise. -/
def streamDsts (e : QEntry) (inf : QInfo) : List (StreamBlk × VOp × Nat) :=
  (e.blks.filter fun b => b.writes).filterMap fun b => (inf.dst.find? fun v => b.names v).map fun v => (b, v, e.posOf inf b v)

/-- What reading a strip came to. -/
structure StripRead where
  st : State
  waits : Bool := false
  bad : Option (Nat × Trap) := none
  vals : List Nat := []
  pages : List PageAt := []
  deriving DecidableEq, Repr

/-- Read elements `k` to `k + n − 1` of the strip that starts at position `p`; positions at or beyond the length make no access. -/
def readStrip (t : Thread) (e : QEntry) (b : StreamBlk) (p : Nat) : Nat → Nat → List PageAt → State → StripRead
  | 0, _, ps, s => { st := s, pages := ps }
  | n + 1, k, ps, s =>
    if b.len ≤ p + k then
      let r := readStrip t e b p n (k + 1) ps s
      { r with vals := 0 :: r.vals }
    else
      let va := b.desc.addr (p + k)
      match locateAt ps s (e.who t) va .read false with
      | (.at l, s) =>
        let r := readStrip t e b p n (k + 1) (addPage ps s (e.who t) va .read l) s
        { r with vals := loadT s t l b.fmt.bytes :: r.vals }
      | (.wait, s) => { st := s, waits := true, pages := ps }
      | (.bad tr, s) => { st := s, bad := some (k, tr), pages := ps }

/-- What was read ahead of a strip from element `v` on, with the fault met after it. -/
def earlyStrip (e : QEntry) (b : StreamBlk) (v : Nat) : List Nat × Option Trap :=
  match e.strips.find? fun x => x.reg == b.reg && x.first ≤ v && v ≤ x.first + x.vals.length with
  | some x => (x.vals.drop (v - x.first), x.bad)
  | none => ([], none)

/-- The pages translated for an entry so far: for its strips, and by its run-ahead step (R371). -/
def QEntry.pool (e : QEntry) : List PageAt := e.pages ++ (e.strips.map Strip.pages).flatten

/-- At most `n` elements more of the strip of an entry after what was read ahead; a translation that failed then is not made again
(R258, R365). -/
def stripMore (s : State) (t : Thread) (e : QEntry) (b : StreamBlk) (p n : Nat) (ps : List PageAt) : StripRead :=
  let v := e.vstart.toNat
  let x := earlyStrip e b v
  let early := x.1.take (e.vl.toNat - v)
  match x.2 with
  | some tr => { st := s, bad := if early.length < e.vl.toNat - v then some (v + early.length, tr) else none, vals := early, pages := ps }
  | none =>
    let r := readStrip t e b p (min n (e.vl.toNat - v - early.length)) (v + early.length) ps s
    { r with vals := early ++ r.vals }

/-- A strip as it stands read, kept for the elements still to be performed. -/
def StripRead.keep (r : StripRead) (e : QEntry) (b : StreamBlk) : Strip :=
  ⟨b.reg, e.vstart.toNat, r.vals, r.bad.map Prod.snd, r.pages⟩

/-- The lower of two failing elements. -/
def minBad : Option (Nat × Trap) → Option (Nat × Trap) → Option (Nat × Trap)
  | some u, some w => if u.1 ≤ w.1 then some u else some w
  | some u, none => some u
  | none, w => w

/-- The mask that governs an instruction. -/
def QForm.gov : QForm → Option Nat
  | .v o k =>
    match k with
    | .merge _ => none
    | _ => vGov o
  | .m o _ => mGov o
  | .x o _ => tileGov o.pre
  | _ => none

/-- Deliver a strip's elements below the limit into its register (R258); with none to deliver no register changes (R174). -/
def deliver (t : Thread) (e : QEntry) (q : QForm) (b : StreamBlk) (p limit : Nat) (vals : List Nat) : Thread :=
  if e.vl.toNat ≤ e.vstart.toNat then t else
  let v := b.opnd e
  let u := (elems e.vstart.toNat limit).foldl (fun (u : Thread) k =>
    if b.len ≤ p + k then u.setEl v k 0
    else
      let r := loadConv b.fmt v.ew (vals.getD (k - e.vstart.toNat) 0) 0 none e.mode (e.hash k)
      let u := u.setEl v k r.bits
      if t.active q.gov k then u.raise r.fl else u) t
  if limit = e.vl.toNat then putTail u v (tailZero e.vtype) limit else u

/-- Read every strip of an entry, at most `n` elements more of each; the lowest failing element of them all. -/
def readStrips (t : Thread) (e : QEntry) (n : Nat) : List (StreamBlk × VOp × Nat) → List PageAt → State → StripRead × List Strip
  | [], ps, s => ({ st := s, pages := ps }, [])
  | (b, _, p) :: r, ps, s =>
    let x := stripMore s t e b p n ps
    if x.waits then (x, [x.keep e b])
    else
      let y := readStrips t e n r x.pages x.st
      ({ y.1 with bad := minBad x.bad y.1.bad }, x.keep e b :: y.2)

def deliverAll (t : Thread) (e : QEntry) (q : QForm) (limit : Nat) : List (StreamBlk × VOp × Nat) → List Strip → Thread
  | (b, _, p) :: r, x :: xs => deliverAll (deliver t e q b p limit x.vals) e q limit r xs
  | _, _ => t

/-! ### Write streams (R259) -/

/-- Elements that a write stream stores, below the limit. -/
def streamStores (t : Thread) (e : QEntry) (b : StreamBlk) (p limit : Nat) : List Nat :=
  (elems e.vstart.toNat limit).filter fun k => dstActive t e k && p + k < b.len

/-- Translate the stores before anything is performed; under determinism the combining buffer must have room (R260, R405). -/
def checkStores (t : Thread) (e : QEntry) (b : StreamBlk) (p : Nat) : List Nat → List CombEntry → List PageAt → State → StripRead
  | [], _, ps, s => { st := s, pages := ps }
  | k :: ks, c, ps, s =>
    let va := b.desc.addr (p + k)
    match locateAt ps s (e.who t) va .write false with
    | (.at l, s) =>
      let ps := addPage ps s (e.who t) va .write l
      match l with
      | .mem key =>
        if t.det && isShared key then
          match combPutAll c key (bytesLE b.fmt.bytes 0) with
          | some c => checkStores t e b p ks c ps s
          | none => { st := s, bad := some (k, { code := 11, addr := va, acc := 2 }), pages := ps }
        else checkStores t e b p ks c ps s
      | _ => checkStores t e b p ks c ps s
    | (.wait, s) => { st := s, waits := true, pages := ps }
    | (.bad tr, s) => { st := s, bad := some (k, tr), pages := ps }

/-- The stores of one strip: combined at once under determinism, else owed to the A stream in ascending position (R259, R405). -/
def oweStores (e : QEntry) (b : StreamBlk) (p : Nat) : List Nat → State → Thread → State × Thread × List (Nat × List (BitVec 8))
  | [], s, t => (s, t, [])
  | k :: ks, s, t =>
    let r := storeConv b.fmt (ewBits e.vtype) (t.el (b.opnd e) k) 0 none e.mode (e.hash k)
    let t := t.raise r.fl
    let bs := bytesLE b.fmt.bytes r.bits
    match locateAt e.pages s (e.who t) (b.desc.addr (p + k)) .write false with
    | (.at (.mem key), s) =>
      if t.det && isShared key then oweStores e b p ks s (t.combine s (b.desc.addr (p + k)) ((combPutAll t.comb key bs).getD t.comb))
      else
        let x := oweStores e b p ks s t
        (x.1, x.2.1, (key, bs) :: x.2.2)
    | (_, s) => oweStores e b p ks s t

/-! ### Running an entry -/

/-- What a start comes to. -/
inductive Go where
  /-- the entry cannot start now -/
  | wait (s : State)
  | ran (r : Eff) (e : QEntry)
  deriving DecidableEq, Repr

/-- The lattice keeps VSTART at whole rows (R234; log entry 23). -/
def roundLimit (q : QForm) (f : Nat) : Nat :=
  match q with
  | .x _ .mstream => f / 32 * 32
  | .x _ .mop => f / 32 * 32
  | _ => f

/-- Store what the write streams take of a finished entry, and note its queue pushes. -/
def finishRun (s : State) (u : Thread) (t : Thread) (e : QEntry) (inf : QInfo) (limit : Nat) : State × Thread :=
  (streamDsts e inf).foldl (fun (a : State × Thread) w =>
    let x := oweStores e w.1 w.2.2 (streamStores t e w.1 w.2.2 limit) a.1 a.2
    (x.1, if x.2.2.isEmpty then x.2.1 else { x.2.1 with owed := x.2.1.owed ++ [⟨e.seq, x.2.2, []⟩] })) (s, u)

/-- The effect of an entry has come to its general result, and with it to its end: a VLDFF that met a fault (R277). -/
def hasResult (t : Thread) (e : QEntry) : Bool := t.queue.any fun x => x.seq == e.seq && x.result.isSome

/-- Perform an entry once it is popped and its strips are read; `bad` is the fault of a strip. One that is not to go to its end stands
at the limit. -/
def performRun (s : State) (t : Thread) (e : QEntry) (q : QForm) (inf : QInfo) (limit top : Nat) (bad : Option (Nat × Trap)) : Go :=
  match (if emptyRun e then Eff.done s t else effect s t e limit) with
  | .done s u =>
    let r := finishRun s u t e inf limit
    match bad with
    | some (f, tr) => .ran (.fault r.1 r.2 (roundLimit q f) tr) e
    | none =>
      if limit < top && !hasResult r.2 e then .ran (.hold r.1 r.2 limit) e
      else .ran (.done r.1 r.2) { e with outq := queueOut r.2 e inf }
  | r => .ran r e

/-- The element up to which an entry is performed where at most `n` elements are wanted: the lattice takes whole rows (R234), and a c4 store
whole bytes (R276). -/
def capped (i : Instr) (q : QForm) (vs n top : Nat) : Nat :=
  let unit := if roundLimit q 31 = 0 then 32 else match i with
    | .vst o => if o.f = 13 then 2 else 1
    | _ => 1
  min top ((vs + n + unit - 1) / unit * unit)

/-- The failing element that the run-ahead step of a live entry found; it shortens a VLDFF (R274, R277). -/
def heldBad (e : QEntry) : Option (Nat × Trap) :=
  match e.instr with
  | .vldff _ => none
  | _ => e.stopAt

/-- The V-stream stores that are held need not be performed before an entry: it acts on registers or accesses memory in the V stream alone, and
pushes no token (R275, R290, R390). -/
def keepsStores (q : QForm) : Bool :=
  q.pushes.isNone &&
  match q with
  | .v _ _ => true
  | .m _ k =>
    match k with
    | .load | .loadS | .loadX | .loadSeg | .store | .storeS | .storeX | .storeSeg | .ldpSum | .ldpMaxsum | .ldp | .stp => true
    | _ => false
  | _ => false

/-- Memory as an entry's effect finds it. -/
def settleV (s : State) (t : Thread) (q : QForm) : State × Thread := if keepsStores q then (s, t) else flushV s t fun _ => true

/-- Start an entry, or go on with it: what must be there, what is popped, what is delivered, and its effect, on at most `cap` elements
where that is given (R164, R187, R258 to R263, R289, R290). -/
def runEntry (s : State) (t : Thread) (e : QEntry) (cap : Option Nat) : Go :=
  let q := qForm e.instr
  let inf := e.info t.splitV
  let e := { e with late := e.late && keepsStores q && !t.det }
  if e.spent q then .ran (.done s t) e
  else if !(tokensReady t e q && queuesReady t e inf && roomReady t e inf) then .wait s
  else
    let srcs := streamSrcs e inf
    let rd := readStrips t e e.vl.toNat srcs e.pool s
    if rd.1.waits then .wait rd.1.st
    else
      let topOf (b : Option (Nat × Trap)) : Nat := match b with
        | some (f, _) => roundLimit q f
        | none => e.span q
      let bad := minBad (heldBad e) rd.1.bad
      let wr := (streamDsts e inf).foldl (fun (a : StripRead) w =>
        if a.waits || a.bad.isSome then a
        else checkStores t e w.1 w.2.2 (streamStores t e w.1 w.2.2 (topOf bad)) t.comb a.pages a.st) { st := rd.1.st, pages := rd.1.pages }
      if wr.waits then .wait wr.st
      else
        let bad := minBad bad wr.bad
        let top := topOf bad
        let limit := match cap with
          | some n => if divides e.instr q && e.vstart.toNat < top then capped e.instr q e.vstart.toNat n top else top
          | none => top
        let e1 := { e with popped := true, strips := rd.2, base := if e.live then e.base else e.vstart, pages := wr.pages,
                           stopAt := minBad e.stopAt bad }
        let t1 := popStart t e q inf
        if q.whole && bad.isSome then
          match bad with
          | some (_, tr) => .ran (.fault wr.st t1 0 tr) e1
          | none => .wait wr.st
        else
          let t2 := deliverAll t1 e q top srcs rd.2
          let v := settleV wr.st (if limit < top then t2.keepPages e e1.pages e1.stopAt else t2) q
          performRun v.1 v.2 e1 q inf limit top (if limit < top then none else bad)

end
end Sys2Proof.Machine
end

