-- ==== Sys2Proof/Machine/Vside.lean ====
section
/-! DEFINITION. The vector side's turns: the start of the next entry, the steps of a replay, the commit of the oldest entry and the
trap it raises (spec/06_control_threads.md R163, R164; spec/08_lanes_and_vector_operations.md R221, R222;
spec/18_determinism.md R403; spec/20_traps_and_context.md R438, R443). -/

namespace Sys2Proof.Machine
open Sys2Proof

noncomputable section

/-! ### Entries -/

/-- Update the entry of a sequence number. -/
def Thread.upd (t : Thread) (seq : BitVec 64) (f : QEntry → QEntry) : Thread :=
  { t with queue := t.queue.map fun q => if q.seq = seq then f q else q }

/-- Started, with its effect not yet complete. -/
def QEntry.running (e : QEntry) : Bool := e.started && !e.done

/-- The effect of a running entry is complete: it retires, and waits to commit. -/
def Thread.finish (t : Thread) (seq : BitVec 64) : Thread :=
  match t.queue.find? fun e => e.seq == seq with
  | some e => (t.retire e (qForm e.instr) false).upd seq fun x => { x with done := true, live := false }
  | none => t

/-- Outstanding moves and chord executions of a thread (R282, R320). -/
def State.movesOf (s : State) (t : Thread) : List Move :=
  s.moves.filter fun m => m.part == t.part && m.launch == t.launch && m.rank == t.rank
def State.chrunsOf (s : State) (t : Thread) : List ChrunOp :=
  s.chruns.filter fun m => m.part == t.part && m.launch == t.launch && m.rank == t.rank

/-- A CHRUN of the thread still has commands to place (R319). -/
def unplaced (s : State) (t : Thread) : Bool := (s.chrunsOf t).any fun o => !o.unplaced.isEmpty

/-- An entry that holds its thread's later entries: it faulted, it stands between two elements, or they wait for it; a fence holds them
until it has committed (R164, R222, R228, R383, R430). -/
def holdsLater (e : QEntry) : Bool :=
  e.fault.isSome || e.live || match e.instr with
    | .vfence _ => e.started
    | .vfenceD _ => e.started
    | .vrecv _ => e.running
    | .aalloc _ => e.running
    | .aallocWait _ => e.running
    | .vreplay _ => e.running
    | _ => false

/-- The destination of a running VCOLL shares a register with an operand, or the later entry's operands are not known yet (R194). -/
def hazard (t : Thread) (r e : QEntry) : Bool :=
  r.running &&
  match r.instr with
  | .vcoll o =>
    (match e.instr with
      | .vreplay _ => true
      | .vfill _ => true
      | _ => let i := e.info t.splitV; (i.dst ++ i.src).any fun v => v.opnd.overlaps (r.opnd o.d6))
  | _ => false

/-- Every result of an entry is written: nothing of it waits for its commit. -/
def QEntry.written (e : QEntry) : Bool := e.done && (pendingReg e.instr).isNone && e.outq.isEmpty

/-- The start of a convoy under determinism: everything before it has completed, and its results are written (R403). -/
def convoyOk (s : State) (t : Thread) (before : List QEntry) (q : QForm) : Bool :=
  !(q.cbit && t.det)
    || ((before.all QEntry.written) && t.owed.isEmpty && (s.movesOf t).isEmpty && (s.chrunsOf t).isEmpty)

/-- A result that the commit writes, to a general or to a queue register, is computed once nothing before it can trap (log entry 85). An entry of
8192 elements performs them as the oldest: no frame holds a VSTART of 8192 (R442). -/
def resultOk (t : Thread) (before : List QEntry) (e : QEntry) : Bool :=
  (((pendingReg e.instr).isNone && (queueDsts e (e.info t.splitV)).isEmpty) || before.all fun x => x.done)
    && ((qForm e.instr).whole || e.span (qForm e.instr) < 8192 || before.isEmpty)

/-- Entries that start only when every earlier entry has committed: VRECONF and the fences (R181, R383). -/
def headOnly (q : QForm) : Bool :=
  match q with
  | .v _ .reconf => true
  | .x _ .fence => true
  | _ => false

/-- The vector side of a thread starts entries unless it is halted or being saved (R445, R449). -/
def Thread.vectorRuns (t : Thread) : Bool :=
  match t.run with
  | .halted => false
  | .saving _ => false
  | .rebind => false
  | _ => true

/-- What R164 asks before an entry behind `before` may start. -/
def mayStart (s : State) (t : Thread) (before : List QEntry) (e : QEntry) : Bool :=
  let q := qForm e.instr
  !(before.any holdsLater) && !(before.any fun r => hazard t r e) && !unplaced s t && convoyOk s t before q
    && resultOk t before e && (!headOnly q || (before.isEmpty && t.owed.isEmpty))

/-! ### TOKP (R292) -/

/-- Every earlier entry on the producer has retired. -/
def tokpReady (s : State) (t : Thread) (before : List QEntry) (seq : BitVec 64) (p : Nat) : Bool :=
  (before.all fun e => (qForm e.instr).peer != p || (e.done && (pendingReg e.instr).isNone))
    && (t.owed.all fun o => seq.toNat ≤ o.seq.toNat)
    && (p != 2 || (s.movesOf t).all fun m => seq.toNat ≤ m.seq.toNat)
    && (p != 0 || (s.chrunsOf t).all fun o => seq.toNat ≤ o.seq.toNat)

/-- The sequence number of a running TOKP that may retire. -/
def readyTokp (s : State) (t : Thread) : List QEntry → List QEntry → Option (BitVec 64)
  | _, [] => none
  | before, e :: es =>
    match e.instr with
    | .tokp o =>
      if e.running && tokpReady s t before e.seq (fld o.q.toNat 0 2) then some e.seq else readyTokp s t (before ++ [e]) es
    | _ => readyTokp s t (before ++ [e]) es

/-! ### Starting -/

/-- A reservation for the token an entry pushes (R290). -/
def Thread.reserveFor (t : Thread) (q : QForm) : Thread :=
  match q.pushes with
  | some k => t.reserve k 1
  | none => t

/-- The thread cycle from which a trap met now is taken though the control thread can still issue: it has had the time to push what
follows (R472; log entry 83). -/
def State.trapTime (s : State) : Nat := s.cyc + 16

/-- An engine has taken over what the start of an entry began, and its end pushes the token (R283, R320). -/
def engineTakes (s s' : State) (q : QForm) : Bool :=
  match q with
  | .x _ .tmov => true
  | .m _ .chrun => s'.nextOp != s.nextOp
  | _ => false

/-- Give back the place for a token that an entry holds (R290). -/
def Thread.unreserve (t : Thread) (q : QForm) : Thread :=
  match q.pushes with
  | some k => t.reserve k (-1)
  | none => t

/-- The element at which a fault or a hold leaves an entry. -/
def standsAt (q : QForm) (f : Nat) : BitVec 14 := if q.whole then 0 else BitVec.ofNat 14 f

/-- What an entry needs only while it performs its elements is gone. -/
def QEntry.closed (e : QEntry) : QEntry := { e with live := false, strips := [], pages := [], stopAt := none, late := false }

/-- An entry meets a fault: what it holds since its start for its end is given back, and its trap waits until it is the oldest (R264, R290,
R443). -/
def Thread.failEntry (t : Thread) (s : State) (e : QEntry) (tr : Trap) : Thread :=
  (if e.started then t.unreserve (qForm e.instr) else t).upd e.seq fun x =>
    { x.closed with started := true, fault := some tr, skip := tr.code == 18, room := [], trapFrom := s.trapTime }

/-- Write back what the start of entry `e`, or its going on, came to. -/
def afterStart (s : State) (t : Thread) (e : QEntry) (q : QForm) : Go → State
  | .wait s' => s'
  | .ran r e1 =>
    let inf := e.info t.splitV
    let first (u : Thread) : Thread := if e.live || e.spent q then u else u.reserveFor q
    match r with
    | .done s' u =>
      let u := (first u).upd e.seq fun x =>
        { e1.closed with started := true, done := true, result := x.result, room := roomFor t e inf }
      s'.setThread (u.retire e q (engineTakes s s' q))
    | .started s' u =>
      s'.setThread ((first u).upd e.seq fun x =>
        { e1.closed with started := true, result := x.result, began := s.time, room := roomFor t e inf, pages := e1.pages })
    | .fault s' u f tr =>
      let u := if e.live then u.unreserve q else u
      s'.setThread (u.upd e.seq fun _ =>
        { e1.closed with started := true, vstart := standsAt q f, fault := some tr, skip := tr.code == 18, room := [], trapFrom := s.trapTime })
    | .hold s' u f =>
      if standsAt q f = e.vstart then
        s'.setThread (u.upd e.seq fun _ =>
          { e1 with popped := e.popped || popsAny e q inf, base := e.base, pages := e.pages, stopAt := e.stopAt, late := false })
      else
        s'.setThread ((first u).upd e.seq fun x =>
          { e1 with started := true, live := true, vstart := standsAt q f, room := roomFor t e inf, pages := x.pages, stopAt := x.stopAt,
                    late := false })

/-- The stores of the write streams of an entry that was started and comes to its end (R259, R260). -/
def lateCheck (s : State) (t : Thread) (e : QEntry) : StripRead :=
  (streamDsts e (e.info t.splitV)).foldl (fun (a : StripRead) w =>
    if a.waits || a.bad.isSome then a else checkStores t e w.1 w.2.2 (streamStores t e w.1 w.2.2 e.vl.toNat) t.comb a.pages a.st)
      { st := s, pages := e.pages }

/-- An entry that was started comes to its end, from `t` to `u`: its write streams take the result, its queue pushes are noted, and it
retires (R259, R263, R428, R430). -/
def lateDone (wr : StripRead) (s : State) (t u : Thread) (e : QEntry) : State :=
  let inf := e.info t.splitV
  match wr.bad with
  | some (_, tr) => s.setThread (t.failEntry s e tr)
  | none =>
    let r := finishRun s u t { e with pages := wr.pages } inf e.vl.toNat
    r.1.setThread ((r.2.upd e.seq fun x => { x.closed with outq := queueOut r.2 e inf }).finish e.seq)

/-! ### Replays (R221, R222, R255) -/

/-- The entry a replay runs next, as if pushed at that point; the checks of its push are not made again (log entry 96). -/
def replaySub (t : Thread) (e : QEntry) (pos : Nat) : Option QEntry :=
  (t.chain[pos]?).map fun c =>
    let bs := (e.blks.zip e.repPos).map fun p => { p.1 with pos := p.2 }
    let i := c.info t.splitV
    let b := touched bs i
    { c with seq := e.seq, pc := e.pc, vstart := e.vstart, popped := e.subPopped, live := e.live, started := false, done := false,
             strips := e.strips, base := e.base, pages := e.pages, stopAt := e.stopAt, late := e.late, blks := b,
              qs := e.qs.filter fun p => (i.dst ++ i.src).any fun v => v.opnd.reg == p.1,
             posD := posFor b i 0, posA := posFor b i 1, posB := posFor b i 2 }

def pushOut (t : Thread) (out : List (Nat × List (BitVec 64))) : Thread :=
  out.foldl (fun t p => t.setQ p.1 { t.qAt p.1 with entries := (t.qAt p.1).entries ++ p.2 }) t

/-- Positions after a replayed entry. -/
def advancePos (e c : QEntry) (t : Thread) : List (BitVec 64) :=
  let i := c.info t.splitV
  (e.blks.zip e.repPos).map fun p =>
    if touched [p.1] i = [] then p.2 else BitVec.ofNat 64 (min (p.2.toNat + c.vl.toNat) p.1.len)

/-- The replay goes on past the entry just completed (R221, R222). -/
def nextReplay (t : Thread) (e c : QEntry) (rem : BitVec 16) (pos : BitVec 4) : Thread :=
  let t := t.upd e.seq fun x => { x.closed with vstart := 0, subPopped := false, repPos := advancePos e c t }
  if pos.toNat + 1 < t.chain.length then { t with replay := some (rem, pos + 1) }
  else if 1 < rem.toNat then { t with replay := some (rem - 1, 0) }
  else ({ t with replay := none } : Thread).finish e.seq

/-- One entry of a running replay, or a part of it. -/
def replayStep (s : State) (t : Thread) (e : QEntry) (rem : BitVec 16) (pos : BitVec 4) (cap : Option Nat) : State :=
  match replaySub t e pos.toNat with
  | none => s.setThread (({ t with replay := none } : Thread).finish e.seq)
  | some c =>
    let q := qForm c.instr
    let inf := c.info t.splitV
    let before := t.queue.takeWhile fun x => x.seq != e.seq
    if unplaced s t || !convoyOk s t before q || !roomReady t { c with live := false } inf
      || !((queueDsts c inf).isEmpty || before.isEmpty) then s
    else match runEntry s t c cap with
      | .wait s' => s'
      | .ran r c1 =>
        let first (u : Thread) : Thread := if c.live then u else u.reserveFor q
        match r with
        | .done s' u => s'.setThread (nextReplay (((pushOut (first u) c1.outq)).retire c q (engineTakes s s' q)) e c rem pos)
        | .started s' u => s'.setThread (nextReplay ((first u).retire c q (engineTakes s s' q)) e c rem pos)
        | .fault s' u f tr =>
          let u := (if c.live then u.unreserve q else u).unreserve (qForm e.instr)
          s'.setThread (u.upd e.seq fun x =>
            { x.closed with subPopped := true, vstart := standsAt q f, fault := some tr, skip := tr.code == 18, trapFrom := s.trapTime })
        | .hold s' u f =>
          if standsAt q f = c.vstart then
            s'.setThread (u.upd e.seq fun x =>
              { x with subPopped := c.popped || popsAny c q inf, strips := c1.strips, pages := e.pages, stopAt := e.stopAt, late := false })
          else
            s'.setThread ((first u).upd e.seq fun x =>
              { x with subPopped := true, live := true, vstart := standsAt q f, strips := c1.strips, base := c1.base, late := false })

def QEntry.isReplay (e : QEntry) : Bool :=
  match e.instr with
  | .vreplay _ => true
  | _ => false

/-- The VREPLAY that the thread's chain state belongs to: the last one that has begun, those before it being through; where none has, as in a
frame of the handler's making, the first (R222, R441). -/
def Thread.activeReplay (t : Thread) : Option (BitVec 64) :=
  if t.replay.isNone then none
  else match (t.queue.filter fun e => e.isReplay && e.popped).getLast? with
    | some e => some e.seq
    | none => (t.queue.find? QEntry.isReplay).map QEntry.seq

/-- VREPLAY begins, or goes on where a trap or a pre-emption left it (R222). Before it pushes a token at its end the stores that the V stream
holds are performed (R290). -/
def startReplay (s : State) (t : Thread) (e : QEntry) : State :=
  let q := qForm e.instr
  let goesOn := t.activeReplay == some e.seq
  if e.spent q && !goesOn then s.setThread (t.upd e.seq fun x => { x with started := true, done := true })
  else if !tokensReady t e q then s
  else
    let r := if q.pushes.isSome then flushV s t (fun _ => true) else (s, t)
    let s := r.1
    let t := (popStart r.2 e q {}).reserveFor q
    let begin1 (t : Thread) (ps : List (BitVec 64)) : Thread := t.upd e.seq fun x => { x with started := true, popped := true, repPos := ps }
    let first := e.blks.map fun (b : StreamBlk) => b.pos
    if goesOn then s.setThread (begin1 t (if e.repPos.length = first.length then e.repPos else first))
    else
      let n : BitVec 16 := e.ga.setWidth 16
      if n = 0 then s.setThread ((begin1 t first).finish e.seq) else s.setThread (begin1 { t with replay := some (n, 0) } first)

/-! ### Starting and going on -/

/-- The entry that a replay is at, or the entry itself: what stands between two elements. -/
def QEntry.inner (t : Thread) (e : QEntry) : QEntry :=
  match t.replay with
  | some (_, pos) => if t.activeReplay = some e.seq then (replaySub t e pos.toNat).getD e else e
  | none => e

/-- Elements up to the next boundary of an element group (R187). -/
def toBoundary (t : Thread) (e : QEntry) : Nat :=
  let c := e.inner t
  let n := groupLen (qForm c.instr) (c.info t.splitV)
  n - c.vstart.toNat % n

/-- The entry stands inside an element group that it has begun, where nothing stops it (R187). -/
def insideGroup (t : Thread) (e : QEntry) : Bool :=
  e.live && (let c := e.inner t; c.vstart != c.base && c.vstart.toNat % groupLen (qForm c.instr) (c.info t.splitV) != 0)

/-- An entry that the thread goes on with: it stands between two elements. -/
def Thread.liveEntry (t : Thread) : Option QEntry := t.queue.find? fun e => e.live && e.fault.isNone

/-- The replay that runs. -/
def Thread.replaying (t : Thread) : Option QEntry :=
  if t.replay.isNone then none
  else t.queue.find? fun e => e.running && e.fault.isNone && e.isReplay

/-- The entry that performs its elements, the replay that runs, or the entry that may start next. -/
def nextEntry (s : State) (t : Thread) : Option QEntry :=
  match t.liveEntry, t.replaying with
  | some e, _ => some e
  | none, some e => some e
  | none, none =>
    let before := t.queue.takeWhile fun e => e.started
    (t.queue.drop before.length).head?.filter fun e => mayStart s t before e

/-- Go on with an entry, or start it. -/
def goOn (s : State) (t : Thread) (e : QEntry) (cap : Option Nat) : State :=
  match e.instr, t.replay with
  | .vreplay _, some (rem, pos) => if e.started then replayStep s t e rem pos cap else startReplay s t e
  | .vreplay _, none => startReplay s t e
  | _, _ => afterStart s t e (qForm e.instr) (runEntry s t e cap)

/-- The vector side is to stop: the thread is halted or being saved, or an earlier entry has faulted (R443, R449). -/
def stopping (t : Thread) : Bool := !t.vectorRuns || t.queue.any fun e => e.fault.isSome

/-! ### The lattice's turn (R168, R456) -/

/-- The thread's next entry is a lattice instruction that is ready to start. -/
def latReady (s : State) (t : Thread) : Bool :=
  t.vectorRuns && t.liveEntry.isNone && match nextEntry s t with
  | none => false
  | some e =>
    let c := e.inner t
    let q := qForm c.instr
    let inf := c.info t.splitV
    isLat q && tokensReady t c q && queuesReady t c inf && roomReady t c inf

/-- The thread performs a lattice instruction. -/
def latBusy (t : Thread) : Bool := t.liveEntry.any fun e => isLat (qForm (e.inner t).instr)

/-- The lattice takes an instruction of the thread: it has finished the one before, the credit is there, and no other ready thread comes
first in rotation. -/
def latticeFree (s : State) (t : Thread) : Bool :=
  creditReady s t && s.threads.all fun u =>
    u.facet != t.facet || u.slot == t.slot ||
      !(latBusy u || (latReady s u && rotation (s.facet t.facet).lastLat (u.slot % 4) < rotation (s.facet t.facet).lastLat (t.slot % 4)))

/-- The entry of `e` has been started by a step from `t` to `u`. -/
def begun (t u : Thread) (e : QEntry) : Bool :=
  match u.queue.find? fun x => x.seq == e.seq with
  | none => false
  | some x => match e.instr with
    | .vreplay _ => e.started && (u.replay != t.replay || x.done || x.live || x.fault.isSome)
    | _ => x.started

/-- A lattice instruction `c` of entry `e` takes its array cycles where the step to `s'` has started it. -/
def noteLattice (s s' : State) (t : Thread) (e c : QEntry) : State :=
  match s'.thread? t.slot with
  | none => s'
  | some u =>
    if isLat (qForm c.instr) && begun t u e then
      let s' := chargeLattice s' t (arrayCycles s t c)
      s'.setFacet t.facet { s'.facet t.facet with lastLat := t.slot % 4 }
    else s'

/-- ENTRY_START, of at most `cap` elements where that is given: a waiting TOKP retires, an entry that stands between two elements or a
running replay goes on, or the next entry in push order starts. What is to stop goes on to the end of its element group. -/
def startUpTo (s : State) (t : Thread) (cap : Option Nat) : State :=
  match t.liveEntry with
  | some e =>
    if !stopping t then goOn s t e cap
    else match t.queue.find? (insideGroup t) with
      | some x => goOn s t x (some (min (toBoundary t x) (cap.getD (toBoundary t x))))
      | none => s
  | none =>
    if !t.vectorRuns then s
    else match readyTokp s t [] t.queue with
      | some seq => s.setThread (t.finish seq)
      | none =>
        match nextEntry s t with
        | none => s
        | some e =>
          let c := e.inner t
          if isLat (qForm c.instr) && !latticeFree s t then s else noteLattice s (goOn s t e cap) t e c

/-- ENTRY_START (R164). -/
def startStep (s : State) (t : Thread) : State := startUpTo s t none

/-- The V-stream stores of the turn that comes are not performed in it (R391, R398). -/
def holdStores (s : State) (t : Thread) : Thread :=
  match nextEntry s t with
  | some e => if (qForm e.instr).pushes.isSome then t else t.upd e.seq fun x => { x with late := true }
  | none => t

/-! ### Chaining (R164, R194) -/

/-- Forms that take element `k` of their operands to element `k` of their result, at one width, and write no mask. -/
def QForm.chains : QForm → Bool
  | .v _ k =>
    match k with
    | .int _ _ | .mv _ | .merge _ | .fp _ _ | .sqrt => true
    | _ => false
  | .m _ k =>
    match k with
    | .load | .loadS | .store | .storeS => true
    | _ => false
  | _ => false

/-- One works on the lanes and the other on memory. -/
def otherUnit : QForm → QForm → Bool
  | .v _ _, .m _ _ => true
  | .m _ _, .v _ _ => true
  | _, _ => false

/-- Pairs of operands of two entries of which one writes. -/
def operandPairs (r e : QInfo) : List (VOp × VOp) := r.dst.product (e.dst ++ e.src) ++ r.src.product e.dst

/-- No operand that one of them writes shares a register with one of the other. -/
def apart (r e : QInfo) : Bool := (operandPairs r e).all fun p => !p.1.opnd.overlaps p.2.opnd

/-- Where they share registers, element `k` of the one is element `k` of the other. -/
def inStep (r e : QInfo) : Bool :=
  (operandPairs r e).all fun p => !p.1.opnd.overlaps p.2.opnd || (p.1.opnd == p.2.opnd && !p.1.modified && !p.2.modified)

/-- An entry that another may be chained to, or that may be chained: elementwise, of fewer elements than 8192, with no stream, no queue register
and no result for a general register. -/
def chainable (t : Thread) (e : QEntry) : Bool :=
  let q := qForm e.instr
  q.chains && e.blks.isEmpty && e.qs.isEmpty && (pendingReg e.instr).isNone && e.vl.toNat < 8192 && !(q.cbit && t.det)

/-- The oldest entry that is not through, which stands between two elements, and the one right behind it. -/
def chainPair (t : Thread) : Option (QEntry × QEntry) :=
  match t.queue.dropWhile fun x => x.done with
  | r :: e :: _ => if r.live && r.fault.isNone && e.fault.isNone && !e.done then some (r, e) else none
  | _ => none

/-- Elements that an entry may perform behind one that stands between two of its own: those of whole groups below its VSTART; any, where
nothing joins the two. -/
def chainRoom (t : Thread) (r e : QEntry) (n : Nat) : Nat :=
  let i := e.info t.splitV
  let g := groupLen (qForm e.instr) i
  if apart (r.info t.splitV) i then n
  else if inStep (r.info t.splitV) i then min n (r.vstart.toNat / g * g - e.vstart.toNat) else 0

/-- An entry starts behind one that stands between two elements, or goes on behind it, by at most `n` elements (R164, R194, R449). -/
def chainStep (s : State) (t : Thread) (n : Nat) : State :=
  match chainPair t with
  | none => s
  | some (r, e) =>
    let k := chainRoom t r e n
    if stopping t || !(chainable t r && chainable t e && otherUnit (qForm r.instr) (qForm e.instr)) || k = 0
      || !(e.live || mayStart s t (t.queue.takeWhile fun x => x.done) e) then s
    else afterStart s t e (qForm e.instr) (runEntry s t e (some k))

/-! ### Committing -/

/-- What a commit writes: its general register, and with it the queue register that this is bound to now (log entry 104), its queue pushes,
the token of a result that it writes, the control thread's view of a handle. -/
def commitEffects (t : Thread) (e : QEntry) : Thread :=
  let q := qForm e.instr
  let t := match pendingReg e.instr, e.result with
    | some d, some v => t.result d v
    | _, _ => t
  let t := pushOut t e.outq
  let t := match pendingReg e.instr, q.pushes with
    | some _, some k => t.putTok k
    | _, _ => t
  match q with
  | .x o .aalloc => t.setView o.a.toNat (t.hnd o.a.toNat).isSome
  | _ => t

/-- What a commit pushes finds room: the places that the entry has held since its start, and those of a register bound since then. -/
def commitRoom (t : Thread) (e : QEntry) : Bool :=
  (match (pendingReg e.instr).bind t.boundQ with
    | some q => (t.qAt q).entries.length < qDepth q
    | none => true)
  && e.outq.all fun p => (t.qAt p.1).entries.length + p.2.length ≤ qDepth p.1

/-- Whether an entry is complete and can commit. -/
def canCommit (t : Thread) (e : QEntry) : Bool := e.done && commitRoom t e

/-- An entry of a vector side that has stopped (R442, R449, R472): a complete one behind one that is not is saved past its end; a whole
instruction that had not performed its step stands as not started, its token gone. -/
def returnEntry (t : Thread) (e : QEntry) : QEntry :=
  let q := qForm e.instr
  let e' := { e.closed with started := false, done := false, began := 0, room := [], outq := [], trapFrom := 0 }
  if e.done then { e' with popped := true, vstart := if q.whole then 1 else BitVec.ofNat 14 (e.span q) }
  else if e.started && e.fault.isNone && q.whole then
    if e.isReplay then e' else { e' with popped := popsAny e q (e.info t.splitV) }
  else e'

/-- A running entry that completes, traps or reaches the end of its element group before the vector side can stop (R187, R449). -/
def mustEnd (t : Thread) (e : QEntry) : Bool :=
  insideGroup t e || (e.running && e.fault.isNone &&
  match e.instr with
  | .vcoll _ => true
  | .vsend _ => true
  | .vrecv _ => true
  | _ => false)

/-- Running entries returned to not started give back their reservations and their places among the waiters (R228, R290). -/
def giveBack (s : State) (t : Thread) (e : QEntry) : State × Thread :=
  if e.running && e.fault.isNone then
    match qForm e.instr with
    | .x _ .aalloc =>
      let f := s.facet t.facet
      (s.setFacet t.facet { f with waiters := f.waiters.filter fun w => w.slot != t.slot }, t.unreserve (qForm e.instr))
    | q => (s, t.unreserve q)
  else (s, t)

/-- The place for a token that the entry at which a replay stands holds. -/
def giveBackInner (t : Thread) (e : QEntry) : Thread := if e.isReplay && e.live then t.unreserve (qForm (e.inner t).instr) else t

/-- Commit the complete entries at the head of a queue; the others are left in order. -/
def commitDone : Thread → List QEntry → Thread × List QEntry
  | t, [] => (t, [])
  | t, e :: es => if canCommit t e then commitDone (commitEffects t e) es else (t, e :: es)

/-- The execution belongs to a CHRUN entry of a thread's queue that has not failed, and not to one of a replay. -/
def ownEntry (o : ChrunOp) (e : QEntry) : Bool :=
  e.seq == o.seq && e.fault.isNone && match e.instr with
    | .chrun _ => true
    | _ => false

/-- The executions of the thread can be left: every command is placed, or those of whole channel groups are (R301; log entry 49). -/
def runsCanStop (s : State) (t : Thread) : Bool :=
  (s.chrunsOf t).all fun o => o.unplaced.isEmpty || (o.atGroup && t.queue.any (ownEntry o))

/-- Nothing of the vector side must end before it can stop (R449). -/
def canStop (s : State) (t : Thread) : Bool := !(t.queue.any (mustEnd t)) && runsCanStop s t && !t.draining

/-- A CHRUN whose commands are not all placed stops after whole channel groups: its VSTART is the first index of the next (R301, R320). -/
def cutRuns (s : State) (t : Thread) : State × Thread :=
  (s.chrunsOf t).foldl (fun (a : State × Thread) o =>
    if o.unplaced.isEmpty then a
    else
      ({ a.1 with chruns := a.1.chruns.map fun (x : ChrunOp) => if x.id = o.id then o.cut else x },
        { a.2 with chOut := a.2.chOut - o.unplaced.length,
                   queue := a.2.queue.map fun (e : QEntry) => if ownEntry o e then { e with vstart := BitVec.ofNat 14 o.groupEnd } else e }))
    (s, t)

/-- The vector side stops: the stores that it holds are performed, complete entries at the head commit, and the others stand in the queue as not
started. What their pushes did to the control thread's copies stands until they are pushed again (R438, R443, R449; log entry 90). -/
def stopVector (s : State) (t : Thread) : State × Thread :=
  let k := cutRuns s t
  let v := flushV k.1 k.2 fun _ => true
  let c := commitDone v.2 v.2.queue
  let r := c.2.foldl (fun (a : State × Thread) e => giveBack a.1 (giveBackInner a.2 e) e) (v.1, c.1)
  (r.1, { r.2 with queue := c.2.map (returnEntry t) })

/-- The reply of an atomic that was sent: its register, its flags, and the pc past it (R374, R443). -/
def finishAmo (t : Thread) : Thread :=
  match t.amo, t.run with
  | some a, .blocked i => { ((t.raise a.fl).result a.d a.value).advance (instrLen i) with amo := none, run := .ready }
  | _, _ => t

/-- A vector-side trap of the oldest entry (R438, R443). -/
def vectorTrap (s : State) (t : Thread) (e : QEntry) (tr : Trap) : State :=
  if !canStop s t || (t.issues && s.cyc < e.trapFrom) then s
  else
    let r := stopVector s (finishAmo t)
    enterTrap r.1 r.2 tr true r.2.pc e.pc e.skip

/-- ENTRY_COMMIT: the oldest entry commits, or raises its trap (R164, R443). -/
def commitStep (s : State) (t : Thread) : State :=
  if !t.vectorRuns then s
  else match t.queue with
    | [] => s
    | e :: rest =>
      match e.fault with
      | some tr => vectorTrap s t e tr
      | none =>
        if canCommit t e then
          let r := flushV s t fun v => v.seq == e.seq
          r.1.setThread { commitEffects { r.2 with queue := rest } e with vstart := 0 }
        else s

end
end Sys2Proof.Machine
end

