-- ==== Sys2Proof/Machine/Traps.lean ====
section
/-! DEFINITION. Traps of the control thread: the vector side stops, and a fault of its oldest entry is reported in their place
(spec/03_encoding.md R76; spec/20_traps_and_context.md R437, R438, R443, R487). -/

namespace Sys2Proof.Machine
open Sys2Proof

noncomputable section

/-- The state after a trap of the control thread, with the pc that its frame holds and the address that raised it: the vector side stops,
and a vector-side trap that its oldest entry has met is reported instead, at the control instruction (R438, R443). -/
def trapped (s : State) (t : Thread) (tr : Trap) (pc epc : BitVec 64) : State :=
  let r := stopVector s t
  match r.2.queue.head?.bind (fun e => e.fault.map fun f => (e, f)) with
  | some (e, f) => enterTrap r.1 r.2 f true t.pc e.pc e.skip
  | none => enterTrap r.1 r.2 tr false pc epc false

/-- Raise a trap of the control thread; while the vector side cannot stop yet, `again` tries once more (R438, R449). -/
def raiseAt (s : State) (t : Thread) (tr : Trap) (pc epc : BitVec 64) (again : Out) : Out :=
  if !canStop s t then again else .next (trapped s t tr pc epc)

/-- A scalar trap of instruction `i` at its own address (R438, R443). -/
def scalarTrap (s : State) (t : Thread) (i : Instr) (tr : Trap) : Out := raiseAt s t tr t.pc t.pc (wait s t i)

/-- Illegal Instruction, precisely at the instruction (R76, R437). -/
def illegal (s : State) (t : Thread) (i : Instr) : Out := scalarTrap s t i { code := 1 }

/-- Misaligned Access at an address (R437, R487). -/
def misaligned (s : State) (t : Thread) (i : Instr) (a : BitVec 64) (acc : Nat) : Out :=
  scalarTrap s t i { code := 2, addr := a, acc := acc }

end
end Sys2Proof.Machine
end

