-- ==== Sys2Proof/Machine/Amo.lean ====
section
/-! DEFINITION. Scalar atomics: AMO, AMOX and the reply that ends them (spec/16_atomics_and_synchronisation.md R372 to R376). -/

namespace Sys2Proof.Machine
open Sys2Proof

noncomputable section

/-- The request of a scalar atomic is sent: the location is updated, and the thread is blocked until the reply (R374, R443). A
second turn, the reply being there, ends the instruction. -/
def sendAmo (i : Instr) (srcs dsts : List Reg) (s : State) (f : Thread → Thread → Out) : Out :=
  withCur s fun w =>
    match w.amo with
    | some _ => .next (s.setThread (finishAmo w))
    | none => issue i srcs dsts s f

/-- Block until the reply. -/
def awaitReply (s : State) (u : Thread) (i : Instr) (r : AmoReply) : Out :=
  .next (s.setThread { u with run := .blocked i, amo := some r })

/-- AMO: one indivisible read, computation and write at the home (R374, R375). -/
def amo (i : Instr) (op : AOp) (f : BitVec 4) (b a d : Reg) (s : State) : Out :=
  sendAmo i (if op = .cas then [a, b, d] else [a, b]) [d] s fun t u =>
    let va := t.src a
    let n := amoBytes f
    if !aligned va n then misaligned s t i va 2
    else match locate s (t.who s) va .atomic false with
      | (.wait, s') => wait s' t i
      | (.bad tr, s') => scalarTrap s' t i tr
      | (.at l, s') =>
        let old := loadHome s' l n
        let x := (t.src b).toNat % 2 ^ (8 * n)
        let c := (t.src d).toNat % 2 ^ (8 * n)
        let r := amoNew op f old x c (Rm.ofCode t.frm.toNat) (srHash t.seed 0 0x50000000)
        awaitReply (storeHome s' t.part l n r.1) u i ⟨d, amoOld f old, r.2⟩

/-- AMO.add (R374, R375). -/
def execAmoAdd (f : BitVec 4) (b a d : Reg) (s : State) : Out := amo (.amoAdd f b a d) .add f b a d s
/-- AMO.min (R374). -/
def execAmoMin (f : BitVec 4) (b a d : Reg) (s : State) : Out := amo (.amoMin f b a d) .min f b a d s
/-- AMO.max (R374). -/
def execAmoMax (f : BitVec 4) (b a d : Reg) (s : State) : Out := amo (.amoMax f b a d) .max f b a d s
/-- AMO.and (R374). -/
def execAmoAnd (f : BitVec 4) (b a d : Reg) (s : State) : Out := amo (.amoAnd f b a d) .and f b a d s
/-- AMO.or (R374). -/
def execAmoOr (f : BitVec 4) (b a d : Reg) (s : State) : Out := amo (.amoOr f b a d) .or f b a d s
/-- AMO.xor (R374). -/
def execAmoXor (f : BitVec 4) (b a d : Reg) (s : State) : Out := amo (.amoXor f b a d) .xor f b a d s
/-- AMO.swap (R374). -/
def execAmoSwap (f : BitVec 4) (b a d : Reg) (s : State) : Out := amo (.amoSwap f b a d) .swap f b a d s
/-- AMO.cas (R374). -/
def execAmoCas (f : BitVec 4) (b a d : Reg) (s : State) : Out := amo (.amoCas f b a d) .cas f b a d s

/-! ### Exact cells -/

/-- The places of the pieces of an access, or what stops it. -/
inductive Pieces where
  | ok (ls : List Loc) (s : State)
  | wait (s : State)
  | bad (tr : Trap) (s : State)
  deriving DecidableEq, Repr

/-- Translate every piece before any is accessed. -/
def locateAll (w : Who) (k : Acc1) : List (BitVec 64) → State → Pieces
  | [], s => .ok [] s
  | va :: vas, s =>
    match locate s w va k false with
    | (.wait, s) => .wait s
    | (.bad tr, s) => .bad tr s
    | (.at l, s) =>
      match locateAll w k vas s with
      | .ok ls s' => .ok (l :: ls) s'
      | r => r

/-- Store consecutive pieces of `n` bytes at their homes. -/
def storePieces (part n : Nat) : List Loc → List (BitVec 8) → State → State
  | [], _, s => s
  | l :: ls, bs, s => storePieces part n ls (bs.drop n) (storeHome s part l n (ofBytesLE (bs.take n)))

/-- Add a value to the exact cell in three places of 32 bytes, checked by R110 (R376). -/
def addToCell (s : State) (part : Nat) (ls : List Loc) (v : Val) : State :=
  let x := Acc.ofImage ((ls.map fun l => bytesLE 32 (loadHome s l 32)).flatten)
  storePieces part 32 ls ((x.addVal v false).image) s

def cellPieces (va : BitVec 64) : List (BitVec 64) := [va, va + 32, va + 64]

/-- AMOX (R376). -/
def execAmox (f : BitVec 4) (b a : Reg) (s : State) : Out :=
  let i := Instr.amox f b a
  sendAmo i [a, b] [] s fun t u =>
    let va := t.src a
    let fm : Fmt := if f = 8 then .bf16 else .f32
    let x := (t.src b).toNat % (if f = 8 then 2 ^ 16 else 2 ^ 32)
    if !aligned va 32 then misaligned s t i va 2
    else match locateAll (t.who s) .atomic (cellPieces va) s with
      | .wait s' => wait s' t i
      | .bad tr s' => scalarTrap s' t i tr
      | .ok ls s' =>
        awaitReply (addToCell s' t.part ls (decodeF fm x)) u i ⟨0, 0, flIf (isSNaNBits fm x) flNV⟩

/-- AMO_REPLY: gD is written, the flags are set, and the thread goes on (R374, R375). -/
def execAmoReply (t : Nat) (s : State) : Out :=
  match s.thread? t with
  | none => .next s
  | some w => if w.amo.isSome then .next (s.setThread (finishAmo w)) else .next s

end
end Sys2Proof.Machine
end

