-- ==== Sys2Proof/Machine/Branch.lean ====
section
/-! DEFINITION. Branches and jumps, with their compressed forms (spec/05_general_registers.md R135, R136; R72, R143). -/

namespace Sys2Proof.Machine
open Sys2Proof

noncomputable section

/-- Branch to pc + off when the relation holds, else fall through (R135). -/
def branch (i : Instr) (srcs : List Reg) (off : BitVec 64) (taken : Thread → Bool) (s : State) : Out :=
  issue i srcs [] s fun t u =>
    if taken t then .next (s.setThread { u with pc := t.pc + off }) else done s u i

/-- BEQ (R135). -/
def execBeq (x : Ext) (i : BitVec 9) (b a : Reg) (j : BitVec 5) (s : State) : Out :=
  branch (.beq x i b a j) [a, b] (offB x i j) (fun t => t.src a == t.src b) s
/-- BNE (R135). -/
def execBne (x : Ext) (i : BitVec 9) (b a : Reg) (j : BitVec 5) (s : State) : Out :=
  branch (.bne x i b a j) [a, b] (offB x i j) (fun t => t.src a != t.src b) s
/-- BLT, signed (R135). -/
def execBlt (x : Ext) (i : BitVec 9) (b a : Reg) (j : BitVec 5) (s : State) : Out :=
  branch (.blt x i b a j) [a, b] (offB x i j) (fun t => (t.src a).slt (t.src b)) s
/-- BGE, signed (R135). -/
def execBge (x : Ext) (i : BitVec 9) (b a : Reg) (j : BitVec 5) (s : State) : Out :=
  branch (.bge x i b a j) [a, b] (offB x i j) (fun t => !(t.src a).slt (t.src b)) s
/-- BLTW, unsigned (R135). -/
def execBltw (x : Ext) (i : BitVec 9) (b a : Reg) (j : BitVec 5) (s : State) : Out :=
  branch (.bltw x i b a j) [a, b] (offB x i j) (fun t => (t.src a).ult (t.src b)) s
/-- BGEW, unsigned (R135). -/
def execBgew (x : Ext) (i : BitVec 9) (b a : Reg) (j : BitVec 5) (s : State) : Out :=
  branch (.bgew x i b a j) [a, b] (offB x i j) (fun t => !(t.src a).ult (t.src b)) s

/-- Write the return address and continue at the target, computed first (R136). -/
def jump (i : Instr) (srcs : List Reg) (d : Reg) (target : Thread → BitVec 64) (s : State) : Out :=
  issue i srcs [d] s fun t u =>
    .next (s.setThread { u.result d (t.pc + BitVec.ofNat 64 (instrLen i)) with pc := target t })

/-- An address with bit 0 cleared (R136). -/
def even (a : BitVec 64) : BitVec 64 := a &&& ~~~1

/-- JAL (R136). -/
def execJal (x : Ext) (i : BitVec 19) (d : Reg) (s : State) : Out :=
  jump (.jal x i d) [] d (fun t => t.pc + offJ x i) s
/-- JALR (R136). -/
def execJalr (x : Ext) (i : BitVec 14) (a d : Reg) (s : State) : Out :=
  jump (.jalr x i a d) [a] d (fun t => even (t.src a + immS x i)) s
/-- The compressed BEQ gD, g0, 2·sext(X) (R72). -/
def execCBeq (x d : Reg) (s : State) : Out :=
  branch (.cBeq x d) [d] (sextWord 6 (2 * x.toNat)) (fun t => t.src d == 0) s
/-- The compressed BNE gD, g0, 2·sext(X) (R72). -/
def execCBne (x d : Reg) (s : State) : Out :=
  branch (.cBne x d) [d] (sextWord 6 (2 * x.toNat)) (fun t => t.src d != 0) s
/-- The compressed JALR g0, gD, 0 (R72). -/
def execCJr (d : Reg) (s : State) : Out := jump (.cJr d) [d] 0 (fun t => even (t.src d)) s
/-- The compressed JALR g1, gD, 0 (R72, R115). -/
def execCJalr (d : Reg) (s : State) : Out := jump (.cJalr d) [d] 1 (fun t => even (t.src d)) s

end
end Sys2Proof.Machine
end

