-- ==== Sys2Proof/Machine/Push.lean ====
section
/-! DEFINITION. The push of a queued instruction (spec/06_control_threads.md R163; spec/08_lanes_and_vector_operations.md R219;
spec/11_scratchpads_and_vector_memory.md R283). -/

namespace Sys2Proof.Machine
open Sys2Proof

noncomputable section

/-- Push a queued instruction (R163). Every check comes before anything is pushed; a full queue stalls. -/
def pushQ (i0 : Instr) (s : State) : Out :=
  withCur s fun w =>
    let i := expand w.lvd i0
    let q := qForm i
    let c := q.caps
    issue i0 (c.1.toList ++ c.2.1.toList ++ c.2.2.toList) [] s fun t u =>
      if (pendingReg i).any t.isPending || bufferBusy t q then wait s t i0
      else
        let e := capture s t i
        let inf := e.info t.splitC
        if recordBad t i q then
          scalarTrap s { t with chain := [], recording := false } i0 { code := 1 }
        else if !(chainOk t e q && handleOk t q && inf.passes t.splitC && boundOk t e inf) then illegal s t i0
        else
          match (objectAddr e q).filter fun a => !aligned a 8 with
          | some a => misaligned s t i0 a 2
          | none =>
            if 64 ≤ t.queue.length then wait s t i0
            else done s (afterRecord (afterPush { u with queue := u.queue ++ [e], pushSeq := u.pushSeq + 1 } e q inf) e q) i0

end
end Sys2Proof.Machine
end

