-- ==== Sys2Proof/Machine/Fetch.lean ====
section
/-! DEFINITION. Instruction fetch (spec/03_encoding.md R47, R48, R76; spec/15_address_translation.md R359) and the loop buffer of
LOOPN (spec/05_general_registers.md R138 to R142); the copies of code (spec/16_atomics_and_synchronisation.md R385 to R388). -/

namespace Sys2Proof.Machine
open Sys2Proof

noncomputable section

/-- What fetching comes to. -/
inductive Fetched (α : Type) where
  | ok (v : α) (s : State)
  /-- a tile that holds a parcel is arriving or leaving (R328) -/
  | wait (s : State)
  | bad (tr : Trap) (s : State)

/-- A fetch fault is one of five causes; what else an access meets is reported as Access Fault (R437). -/
def fetchTrap (tr : Trap) : Trap :=
  if tr.code = 3 ∨ tr.code = 4 ∨ tr.code = 6 ∨ tr.code = 7 then tr else { tr with code := 4, detail := 0 }

/-! ### Copies of code (R385 to R388) -/

/-- The copies of the aligned word at a place that a thread of a slot may fetch: its facet's, and what it has fetched ahead. -/
def copiesOf (s : State) (slot : Nat) (va : BitVec 64) (key : Nat) : List CodeCopy :=
  s.code.filter fun c => c.facet == slot / Config.slotsPerFacet && (c.slot == none || c.slot == some slot) && c.va == va && c.key == key

/-- The parcel at a place: of a copy of its word, or of memory (R388). -/
def fetchedParcel (s : State) (slot : Nat) (va : BitVec 64) (l : Loc) : Nat :=
  match l with
  | .mem key =>
    let o := va.toNat % 4
    match (copiesOf s slot (va - BitVec.ofNat 64 o) (key - o))[Config.codeCopy s.ctr (key - o)]? with
    | some c => fld c.word.toNat (8 * o) 16
    | none => loadHome s l 2
  | l => loadHome s l 2

/-- The thread of a slot fetches the word at `va` ahead of its pc, or its facet's buffer of 32 KiB takes it (R385). -/
def copyCode (s : State) (slot : Nat) (va : BitVec 64) (buffer : Bool) : State :=
  match s.thread? slot with
  | none => s
  | some t =>
    let facet := slot / Config.slotsPerFacet
    if va.toNat % 4 ≠ 0 || va.toNat + 4 ≤ t.pc.toNat
      || (buffer && 8192 ≤ (s.code.filter fun c => c.facet == facet && c.slot == none).length) then s
    else match locate s (t.who s) va .fetch false with
      | (.at (.mem key), s) =>
        { s with code := ⟨facet, if buffer then none else some slot, va, key, BitVec.ofNat 32 (s.mem.readN key 4)⟩ :: s.code }
      | _ => s

/-- The copy holds one of the `n` bytes from `a` on, modulo 2^64. -/
def CodeCopy.within (c : CodeCopy) (a n : BitVec 64) : Bool := (List.range 4).any fun j => (c.va + BitVec.ofNat 64 j - a).toNat < n.toNat

/-- IFLUSH by a thread of a slot: its facet's copies of the range go, and what it has fetched ahead (R386). -/
def flushCode (s : State) (slot : Nat) (a n : BitVec 64) : State :=
  { s with code := s.code.filter fun c =>
      !(c.slot == some slot || (c.slot == none && c.facet == slot / Config.slotsPerFacet && c.within a n)) }

/-- What the thread of a slot has fetched ahead goes (R387). -/
def dropFetched (s : State) (slot : Nat) : State := { s with code := s.code.filter fun c => c.slot != some slot }

/-- Fetch `n` parcels from `va` on, lowest first (R48). -/
def fetchParcels (w : Who) : Nat → BitVec 64 → State → Fetched Nat
  | 0, _, s => .ok 0 s
  | n + 1, va, s =>
    match locate s w va .fetch false with
    | (.wait, s) => .wait s
    | (.bad tr, s) => .bad (fetchTrap tr) s
    | (.at l, s) =>
      match fetchParcels w n (va + 2) s with
      | .ok hi s' => .ok (fetchedParcel s w.slot va l + hi * 2 ^ 16) s'
      | r => r

/-- The bits of the instruction at `va`: an odd address fetches nothing (R47, R48). -/
def fetchWord (w : Who) (va : BitVec 64) (s : State) : Fetched Nat :=
  if va.getLsbD 0 then .bad { code := 2, addr := va, acc := 3 } s
  else
    match fetchParcels w 1 va s with
    | .ok p s' =>
      match fetchParcels w (lengthOf p / 2 - 1) (va + 2) s' with
      | .ok hi s'' => .ok (p + hi * 2 ^ 16) s''
      | r => r
    | r => r

/-- An instruction that needs supervisor mode (R117, R336, R369, R444). -/
def privileged : Instr → Bool
  | .mfs b _ => b == 9
  | .mtsAspace _ => true
  | .mtsIshape _ => true
  | .eret => true
  | .tlbinv _ _ => true
  | .tlbinvA _ => true
  | .tmapset _ _ => true
  | _ => false

/-- An MTS that R117 never admits: VBIND and TIME. -/
def neverWritten : Instr → Bool
  | .mts b _ => b == 10 || b == 11
  | _ => false

/-- The instructions R140 bars from a LOOPN body, by the major opcode of the encoding: branches and jumps, LOOPN, THR, and SYS
other than MFS and MTS. -/
def barred : Instr → Bool
  | .beq .. => true | .bne .. => true | .blt .. => true | .bge .. => true | .bltw .. => true | .bgew .. => true
  | .jal .. => true | .jalr .. => true | .cBeq .. => true | .cBne .. => true | .cJr _ => true | .cJalr _ => true
  | .loopn .. => true
  | .spawn .. => true | .exit => true | .join .. => true | .leave .. => true | .barg .. => true | .yield .. => true
  | .wpush .. => true | .wpop _ => true | .wsteal .. => true | .claim .. => true | .waitw .. => true | .waitt .. => true
  | .trap _ => true | .eret => true | .halt => true | .fence _ => true | .iflush .. => true | .isync => true
  | .tlbinv .. => true | .tlbinvA _ => true
  | _ => false

/-- Fetch and check `n` body instructions from `va` on: the body and the address after it, or the fault with the offending
instruction's address (R141). -/
def fillLoop (w : Who) : Nat → BitVec 64 → State → Fetched (List Instr × BitVec 64)
  | 0, va, s => .ok ([], va) s
  | n + 1, va, s =>
    match fetchWord w va s with
    | .wait s' => .wait s'
    | .bad tr s' => .bad { tr with addr := va, detail := 0 } s'
    | .ok bits s' =>
      match decode bits with
      | none => .bad { code := 1, addr := va } s'
      | some i =>
        if barred i || neverWritten i || (privileged i && !w.sup) then .bad { code := 1, addr := va } s'
        else
          match fillLoop w n (va + BitVec.ofNat 64 (lengthOf bits)) s' with
          | .ok r s'' => .ok (i :: r.1, r.2) s''
          | r => r

end
end Sys2Proof.Machine
end

