-- ==== Sys2Proof/Machine/Status.lean ====
section
/-! DEFINITION. MFS and MTS: the status registers of a thread, its partition and the package (spec/05_general_registers.md R117 to
R119; spec/04_number_formats.md R95 to R101; spec/06_control_threads.md R151 to R153; spec/14_policy_versions.md R347;
spec/15_address_translation.md R359, R360; spec/19_fabric_collectives_and_time.md R432;
spec/21_power_host_and_management.md R455). -/

namespace Sys2Proof.Machine
open Sys2Proof

noncomputable section

/-- TSTAT (R151). -/
def tstatWord (t : Thread) : BitVec 64 :=
  BitVec.ofNat 64 (t.rank % 2 ^ 20 * 2 ^ 36 + t.part % 16 * 2 ^ 32 + t.slot % 2 ^ 14 * 2 ^ 18 + encBool t.sup * 2 ^ 7
    + encBool t.vempty * 2 ^ 2 + encBool t.det * 2)

/-- PRIO (R152). -/
def prioWord (t : Thread) : BitVec 64 :=
  BitVec.ofNat 64 (encBool t.pe * 2 ^ 7 + t.prioMax.toNat * 2 ^ 4 + t.level.toNat)

/-- VBIND (R347). -/
def vbindWord (s : State) (t : Thread) : BitVec 64 :=
  BitVec.ofNat 64 ((if s.vtab.isSome then 2 ^ 16 else 0) + (s.partOf t).ver.toNat)

/-- The value of the status register of a code (R58, R117). -/
def statusWord (s : State) (t : Thread) (code : Nat) : BitVec 64 :=
  match code with
  | 0 => t.frm.setWidth 64
  | 1 => t.xrm.setWidth 64
  | 2 => t.fflags.setWidth 64
  | 3 => BitVec.ofNat 64 (encBool t.sat)
  | 4 => t.carry.setWidth 64
  | 5 => t.seed
  | 6 => tstatWord t
  | 7 => prioWord t
  | 8 => t.weight.setWidth 64
  | 9 => t.aspace
  | 10 => vbindWord s t
  | 11 => s.time
  | _ => (s.partOf t).ishape

/-- FFLAGS, SAT, EFC and TSTAT wait for the vector side (R101, R119). -/
def statusWaits (code : Nat) : Bool := code == 2 || code == 3 || code == 4 || code == 6

/-- MFS (R117 to R119). -/
def execMfs (b d : Reg) (s : State) : Out :=
  let i := Instr.mfs b d
  issue i [] [d] s fun t u =>
    let go := done s (u.result d (statusWord s t b.toNat)) i
    if b = 9 ∧ !t.sup then illegal s t i
    else if statusWaits b.toNat then afterVcp i s t go
    else go

/-- MTS of XRM and SEED, and of VBIND and TIME, which no MTS writes (R96, R99, R117). -/
def execMts (b a : Reg) (s : State) : Out :=
  let i := Instr.mts b a
  issue i [a] [] s fun t u =>
    if b = 1 then done s { u with xrm := (t.src a).setWidth 2 } i
    else if b = 5 then done s { u with seed := t.src a } i
    else illegal s t i

/-- MTS of FRM: modes 6 and 7 are refused (R95). -/
def execMtsFrm (a : Reg) (s : State) : Out :=
  let i := Instr.mtsFrm a
  issue i [a] [] s fun t u =>
    let v : BitVec 3 := (t.src a).setWidth 3
    if 6 ≤ v.toNat then illegal s t i else done s { u with frm := v } i

/-- MTS of FFLAGS (R97, R101). -/
def execMtsFflags (a : Reg) (s : State) : Out :=
  let i := Instr.mtsFflags a
  issue i [a] [] s fun t u => afterVcp i s t (done s { u with fflags := (t.src a).setWidth 6 } i)

/-- MTS of SAT (R98, R101). -/
def execMtsSat (a : Reg) (s : State) : Out :=
  let i := Instr.mtsSat a
  issue i [a] [] s fun t u => afterVcp i s t (done s { u with sat := (t.src a).getLsbD 0 } i)

/-- MTS of EFC (R100, R101). -/
def execMtsEfc (a : Reg) (s : State) : Out :=
  let i := Instr.mtsEfc a
  issue i [a] [] s fun t u => afterVcp i s t (done s { u with carry := (t.src a).setWidth 32 } i)

/-- MTS of TSTAT writes VEMPTY alone (R119, R151). -/
def execMtsTstat (a : Reg) (s : State) : Out :=
  let i := Instr.mtsTstat a
  issue i [a] [] s fun t u => afterVcp i s t (done s { u with vempty := (t.src a).getLsbD 2 } i)

/-- MTS of PRIO: PE and MAX are the supervisor's, and LEVEL never exceeds MAX (R152). -/
def execMtsPrio (a : Reg) (s : State) : Out :=
  let i := Instr.mtsPrio a
  issue i [a] [] s fun t u =>
    let v := t.src a
    let pe := v.getLsbD 7
    let mx : BitVec 2 := v.extractLsb' 4 2
    let lv : BitVec 2 := v.extractLsb' 0 2
    if (!t.sup && (pe != t.pe || mx != t.prioMax)) || mx.toNat < lv.toNat then illegal s t i
    else done s { u with pe := pe, prioMax := mx, level := lv } i

/-- MTS of WSHARE: weights 1 to 16 (R153). -/
def execMtsWshare (a : Reg) (s : State) : Out :=
  let i := Instr.mtsWshare a
  issue i [a] [] s fun t u =>
    let w : BitVec 5 := (t.src a).setWidth 5
    if w = 0 ∨ 16 < w.toNat then illegal s t i else done s { u with weight := w } i

/-- MTS of ASPACE: supervisor mode, a legal value, and the thread drained (R359, R360). -/
def execMtsAspace (a : Reg) (s : State) : Out :=
  let i := Instr.mtsAspace a
  issue i [a] [] s fun t u =>
    if !t.sup || !aspaceOk (t.src a) then illegal s t i
    else afterVcp i s t (if t.owed.isEmpty then done s { u with aspace := t.src a } i else wait s t i)

/-- Legal ISHAPE values: no reserved bit, STAGW at most 10 000, RAMP at most 1000 (R455). -/
def ishapeOk (v : BitVec 64) : Bool :=
  fld v.toNat 8 8 == 0 && fld v.toNat 26 6 == 0 && fld v.toNat 46 18 == 0 && fld v.toNat 32 14 ≤ 10000 && fld v.toNat 16 10 ≤ 1000

/-- MTS of ISHAPE: the partition's, from supervisor mode; the rate it sets holds from the next arithmetic cycle on (R117, R455, R456). -/
def execMtsIshape (a : Reg) (s : State) : Out :=
  let i := Instr.mtsIshape a
  issue i [a] [] s fun t u =>
    if !t.sup || !ishapeOk (t.src a) then illegal s t i
    else
      let s := settlePart s t.part
      done (s.setPart t.part { s.partOf t with ishape := t.src a }) u i

end
end Sys2Proof.Machine
end

