-- ==== Sys2Proof/Machine/Context.lean ====
section
/-! DEFINITION. The context image of a thread: how it is written and read back (spec/20_traps_and_context.md R447, R448). -/

namespace Sys2Proof.Machine
open Sys2Proof

noncomputable section

/-! ### Writing -/

/-- The fields of a list, each `n` bytes. -/
def bytesOf {w : Nat} (n : Nat) (l : List (BitVec w)) : List (BitVec 8) := (l.map fun x => bytesLE n x.toNat).flatten

/-- The status area: codes 0 to 9, VTYPE, VL, and LVD with the split (R447). -/
def statusArea (s : State) (t : Thread) : List (BitVec 8) :=
  ((List.range 10).map fun c => bytesLE 8 (statusWord s t c).toNat).flatten ++ bytesLE 24 0 ++ bytesLE 8 t.vtype.toNat
    ++ bytesLE 8 t.vl.toNat ++ bytesLE 8 (t.lvd.toNat + t.splitV.toNat * 2 ^ 8) ++ bytesLE 128 0

/-- A number with a bound flag in bit 7. -/
def boundByte {w : Nat} (x : Option (BitVec w)) : List (BitVec 8) :=
  match x with
  | some r => bytesLE 1 (r.toNat + 2 ^ 7)
  | none => bytesLE 1 0

/-- POS, register and bound flag of a stream block (R448). -/
def streamWord (b : Option StreamBlk) : List (BitVec 8) :=
  match b with
  | some b => bytesLE 8 (b.pos.toNat % 2 ^ 48 + b.reg.toNat * 2 ^ 48 + 2 ^ 55)
  | none => bytesLE 8 0

/-- The lattice word: binding, active planes and plane formats (R448). -/
def latticeWord (t : Thread) : Nat :=
  let one (h : Option BoundTile) (k : Nat) : Nat := match h with
    | some b => 4 ^ k * (1 + 2 * (b.tile % 2)) + encBool b.active * 2 ^ (4 + k) + b.fmt0.toNat % 2 * 2 ^ (8 + 2 * k)
        + b.fmt1.toNat % 2 * 2 ^ (9 + 2 * k)
    | none => 0
  one t.h0 0 + one t.h1 1

/-- The bookkeeping block (R448). -/
def bookkeeping (t : Thread) : List (BitVec 8) :=
  bytesLE 8 t.tree.toNat ++ bytesLE 8 t.treeAddr.toNat ++ bytesOf 1 t.tok.toList
    ++ (t.q.toList.map fun (q : QReg) => bytesLE 1 q.entries.length).flatten
    ++ (t.q.toList.map fun (q : QReg) => boundByte q.general).flatten ++ (t.q.toList.map fun (q : QReg) => boundByte q.vector).flatten
    ++ (t.streams.toList.map streamWord).flatten ++ bytesLE 8 (encBool t.recording + t.chain.length * 2 ^ 8)
    ++ bytesLE 8 (latticeWord t) ++ bytesLE 8 (t.chOut % 2 ^ 32 + t.chStatus.toNat * 2 ^ 32 + t.chFlags.toNat * 2 ^ 40)
    ++ bytesOf 2 t.hw.toList ++ bytesLE 112 0

/-- A stream descriptor as its 96 bytes (R250). -/
def descBytes (d : StreamDesc) : List (BitVec 8) :=
  bytesLE 8 d.base.toNat ++ bytesOf 8 d.strides ++ bytesOf 4 d.bounds ++ bytesLE 1 d.ndim.toNat ++ bytesLE 1 d.fmt.toNat
    ++ bytesLE 1 d.dir.toNat ++ bytesLE 1 d.grp.toNat ++ bytesLE 12 0

/-- Pieces to write, each at an offset of the image. -/
abbrev Parts := List (Nat × List (BitVec 8))

def putParts (m : Memory) (base : Nat) (l : Parts) : Memory := l.foldl (fun m p => m.writeBytes (base + p.1) p.2) m

/-- Offset of a queue register's entries in its area: q0 to q3 of 128 bytes, q4 to q7 of 512 (R447). -/
def queueOff (i : Nat) : Nat := if i < 4 then 0x4800 + 128 * i else 0x4A00 + 512 * (i - 4)

/-- The parts of the image that hold registers (R447). -/
def registerParts (s : State) (t : Thread) : Parts :=
  [(0x4000, statusArea s t), (0x4100, bytesOf 16 t.b.toList), (0x4180, bookkeeping t), (0x4300, bytesOf 32 t.n.toList),
    (0x4400, bytesOf 32 t.f.toList), (0x4480, bytesOf 32 t.cb.toList)]
    ++ (t.streams.toList.mapIdx fun i b => (0x4500 + 96 * i, match b with
      | some b => descBytes b.desc
      | none => []))
    ++ (t.q.toList.mapIdx fun i (q : QReg) => (queueOff i, bytesOf 8 q.entries))
    ++ [(0x5200, (t.chain.map QEntry.bytes).flatten), (0x6000, bytesOf 1024 t.m.toList),
        (0x8000, ((List.range 4096).map fun k => bytesLE 4 (Cells.get 0 t.treg k).toNat).flatten)]

/-- The parts that hold vector storage, up to each register's high-water length (R177, R447). -/
def storageParts (t : Thread) : Parts :=
  let r := rlenOf t.splitV
  (List.range (nregsOf t.splitV)).map fun v => (0xC000 + v * r, Cells.getRange 0 t.vreg (v * r) (t.hw.toList.getD v 0).toNat)

/-- The parts that hold a bound tile and its weight planes (R240, R447). -/
def tileParts (h : Nat) (b : Option BoundTile) : Parts :=
  match b with
  | none => []
  | some b =>
    let plane (p : Cells (BitVec 32)) : List (BitVec 8) := ((List.range 1024).map fun k => bytesLE 4 (Cells.get 0 p k).toNat).flatten
    [(0x2C000 + 8192 * h, plane b.plane0), (0x2C000 + 8192 * h + 4096, plane b.plane1),
      (0x30000 + 98304 * h, ((List.range 1024).map fun k => (Cells.get Acc.zero b.acc k).image).flatten)]

/-- The combining buffer: data, word address and mask of each entry (R447; log entry 25 for cluster-scratchpad words). -/
def combParts (t : Thread) : Parts :=
  [(0x60000, (t.comb.map fun (e : CombEntry) =>
    bytesLE 8 e.data.toNat ++ bytesLE 8 (e.word % 2 ^ 56 + e.mask.toNat * 2 ^ 56)).flatten)]

/-- The unit window of a slot (R268, R269). -/
def unitBase (slot : Nat) : Nat := unitKey (slot / Config.slotsPerFacet) (slot % Config.slotsPerFacet * 65536)

/-- A register whose contents could not be corrected is saved as zero (R454). -/
def Thread.zeroReg (t : Thread) (r : ErrReg) : Thread :=
  match r with
  | .vector r => { t with vreg := Cells.setRange 0 t.vreg (rlenOf t.splitV * r.toNat) (List.replicate (rlenOf t.splitV) 0) }
  | .mask r => { t with m := t.m.setIfInBounds r.toNat 0 }
  | .tile r => { t with treg := (List.range 1024).foldl (fun c k => Cells.set 0 c (1024 * r.toNat + k) 0) t.treg }
  | .queue r => t.setQ r.toNat { t.qAt r.toNat with entries := (t.qAt r.toNat).entries.map fun _ => 0 }
  | .codebook r => { t with cb := t.cb.setIfInBounds r.toNat 0 }

/-- The register still stands as the error left it: nothing has been written to it since (R454; log entry 108). -/
def Thread.isLost (t : Thread) (r : ErrReg) : Bool := t.zeroReg r == t

/-- Write everything of the image but the frame block. -/
def writeImage (s : State) (t : Thread) (base : Nat) : Memory :=
  let m := putParts s.mem base (registerParts s t ++ storageParts t ++ tileParts 0 t.h0 ++ tileParts 1 t.h1 ++ combParts t)
  m.writeBytes (base + 0x1C000) (s.mem.readBytes (unitBase t.slot) (2 ^ (s.partOf t).uwlog.toNat))

/-! ### Reading -/

/-- Number `i` of an array of `n`-byte numbers. -/
def numAt (m : Memory) (a n i : Nat) : Nat := m.readN (a + n * i) n

/-- Cells of `n` bytes each read from an array. -/
def cellsAt {w : Nat} (m : Memory) (a n count : Nat) : Cells (BitVec w) :=
  (List.range count).foldl (fun c k => Cells.set 0 c k (BitVec.ofNat w (numAt m a n k))) []

def readBound {w : Nat} (v : Nat) : Option (BitVec w) := if bitAt v 7 then some (BitVec.ofNat w v) else none

/-- The stream block `i` of an image. -/
def readStreamBlk (m : Memory) (base i : Nat) : Option StreamBlk :=
  let w := m.readN (base + 0x4180 + 0x38 + 8 * i) 8
  let a := base + 0x4500 + 96 * i
  if bitAt w 55 then
    some
      { desc :=
          { base := .ofNat 64 (m.readN a 8), strides := (List.range 6).map fun j => .ofNat 64 (numAt m (a + 8) 8 j),
            bounds := (List.range 6).map fun j => .ofNat 32 (numAt m (a + 56) 4 j), ndim := .ofNat 8 (m.readN (a + 80) 1),
            fmt := .ofNat 8 (m.readN (a + 81) 1), dir := .ofNat 8 (m.readN (a + 82) 1), grp := .ofNat 8 (m.readN (a + 83) 1) },
        reg := .ofNat 6 (fld w 48 6), pos := .ofNat 64 (fld w 0 48) }
  else none

/-- The tile of handle `h` of an image; it is bound to a tile of the facet only later (R248). -/
def readTile (m : Memory) (base h : Nat) : Option BoundTile :=
  let w := m.readN (base + 0x4200) 8
  if bitAt w (2 * h) then
    some
      { tile := 2, active := bitAt w (4 + h), fmt0 := .ofNat 2 (fld w (8 + 2 * h) 1), fmt1 := .ofNat 2 (fld w (9 + 2 * h) 1),
        plane0 := cellsAt m (base + 0x2C000 + 8192 * h) 4 1024, plane1 := cellsAt m (base + 0x2C000 + 8192 * h + 4096) 4 1024,
        acc := (List.range 1024).foldl (fun c k =>
          Cells.set Acc.zero c k (Acc.ofImage (m.readBytes (base + 0x30000 + 98304 * h + 96 * k) 96))) [] }
  else none

def readQueueReg (m : Memory) (base i : Nat) : QReg :=
  let k := base + 0x4180 + 0x20
  { entries := (List.range (min (m.readN (k + i) 1) (qDepth i))).map fun j => .ofNat 64 (numAt m (base + queueOff i) 8 j),
    general := readBound (m.readN (k + 8 + i) 1), vector := readBound (m.readN (k + 16 + i) 1) }

/-- The chain buffer; none where an entry does not decode. -/
def readChain (m : Memory) (base n : Nat) : Option (List QEntry) :=
  (List.range n).foldr (fun i acc =>
    match readEntry (m.readBytes (base + 0x5200 + 128 * i) 128), acc with
    | some e, some es => some ({ e with popped := false } :: es)
    | _, _ => none) (some [])

/-- The chain entries of an image with the stream blocks and queue registers they were recorded under. -/
def relinkChain (old new : List QEntry) : List QEntry :=
  new.mapIdx fun i (e : QEntry) =>
    match old[i]? with
    | some h => if h.instr = e.instr then { e with blks := h.blks, qs := h.qs } else e
    | none => e

/-- Vector storage of an image under a split. -/
def readStorage (m : Memory) (base : Nat) (split : BitVec 2) : Cells (BitVec 8) :=
  let r := rlenOf split
  (List.range (nregsOf split)).foldl (fun c v =>
    Cells.setRange 0 c (v * r) (m.readBytes (base + 0xC000 + v * r) (min (numAt m (base + 0x4210) 2 v) r))) []

/-- Combining entries of an image; how many are in use the device keeps. -/
def readComb (m : Memory) (base n : Nat) : List CombEntry :=
  (List.range n).map fun i =>
    let w := m.readN (base + 0x60000 + 16 * i + 8) 8
    { word := w % 2 ^ 56, data := .ofNat 64 (m.readN (base + 0x60000 + 16 * i) 8), mask := .ofNat 8 (fld w 56 8) }

/-- The ASPACE of an image. -/
def imageAspace (m : Memory) (base : Nat) : BitVec 64 := .ofNat 64 (m.readN (base + 0x4048) 8)

/-- The thread that an image restores, but for the frame block. `t` holds what the image does not, with the tokens and chord results
that arrived since it was written; none where the chain buffer holds no instruction (log entry 24). -/
def readImage (m : Memory) (base : Nat) (t : Thread) : Option Thread :=
  let st (c : Nat) : Nat := m.readN (base + 0x4000 + 8 * c) 8
  let bk := base + 0x4180
  let lv := m.readN (base + 0x4078) 8
  let split : BitVec 2 := .ofNat 2 (fld lv 8 2)
  let ch := m.readN (bk + 0x78) 8
  let cs := m.readN (bk + 0x88) 8
  let status : BitVec 8 := .ofNat 8 (fld cs 32 8)
  (readChain m base (min (fld ch 8 5) 16)).map fun chain =>
    { t with
      frm := .ofNat 3 (st 0), xrm := .ofNat 2 (st 1), fflags := .ofNat 6 (st 2), sat := bitAt (st 3) 0,
      carry := .ofNat 32 (st 4), seed := .ofNat 64 (st 5), vempty := bitAt (st 6) 2, pe := bitAt (st 7) 7,
      prioMax := .ofNat 2 (fld (st 7) 4 2), level := .ofNat 2 (fld (st 7) 0 2), weight := .ofNat 5 (st 8),
      aspace := imageAspace m base, vtype := .ofNat 6 (m.readN (base + 0x4068) 8), vl := .ofNat 14 (m.readN (base + 0x4070) 8),
      lvd := .ofNat 6 (fld lv 0 6), splitV := split, splitC := split,
      b := Vector.ofFn fun (i : Fin 8) => .ofNat 128 (numAt m (base + 0x4100) 16 i.val),
      tree := .ofNat 64 (m.readN bk 8), treeAddr := .ofNat 64 (m.readN (bk + 8) 8),
      tok := Vector.ofFn fun (i : Fin 16) => .ofNat 8 (m.readN (bk + 16 + i.val) 1) + t.tok.toList.getD i.val 0,
      q := Vector.ofFn fun (i : Fin 8) => readQueueReg m base i.val,
      streams := Vector.ofFn fun (i : Fin 8) => readStreamBlk m base i.val,
      recording := bitAt ch 0, chain := relinkChain t.chain chain,
      h0 := readTile m base 0, h1 := readTile m base 1, view0 := (readTile m base 0).isSome, view1 := (readTile m base 1).isSome,
      chStatus := if t.chStatus < status then status else t.chStatus, chFlags := t.chFlags ||| .ofNat 8 (fld cs 40 8),
      hw := Vector.ofFn fun (i : Fin 64) => .ofNat 14 (min (numAt m (bk + 0x90) 2 i.val) (rlenOf split)),
      n := Vector.ofFn fun (i : Fin 8) => .ofNat 256 (numAt m (base + 0x4300) 32 i.val),
      f := Vector.ofFn fun (i : Fin 4) => .ofNat 256 (numAt m (base + 0x4400) 32 i.val),
      cb := Vector.ofFn fun (i : Fin 4) => .ofNat 256 (numAt m (base + 0x4480) 32 i.val),
      m := Vector.ofFn fun (i : Fin 8) => .ofNat 8192 (numAt m (base + 0x6000) 1024 i.val),
      treg := cellsAt m (base + 0x8000) 4 4096, vreg := readStorage m base split, comb := readComb m base t.comb.length }

end
end Sys2Proof.Machine
end

