-- ==== Sys2Proof/Machine/Groups.lean ====
section
/-! DEFINITION. Groups and their barrier and switch episodes (spec/06_control_threads.md R154, R155; spec/14_policy_versions.md R351;
spec/21_power_host_and_management.md R460). -/

namespace Sys2Proof.Machine
open Sys2Proof

noncomputable section

/-! ### Membership (R154) -/

def Members.has (m : Members) (l r : Nat) : Bool :=
  m.plus.contains (l, r) || ((m.whole.any fun w => w.1 == l) && !m.minus.contains (l, r))

/-- How many threads are members. -/
def Members.count (m : Members) : Nat := (m.whole.map Prod.snd).sum + m.plus.length - m.minus.length

/-- The whole launch is a member, but for the threads that left. -/
def Members.hasLaunch (m : Members) (l : Nat) : Bool := m.whole.any fun w => w.1 == l

def Members.add (m : Members) (l r : Nat) : Members :=
  if m.hasLaunch l then { m with minus := m.minus.filter (· != (l, r)) } else { m with plus := (l, r) :: m.plus }

def Members.drop (m : Members) (l r : Nat) : Members :=
  { m with plus := m.plus.filter (· != (l, r)),
           minus := if m.hasLaunch l && !m.minus.contains (l, r) then (l, r) :: m.minus else m.minus }

/-- All the threads of a launch are members from now on (R148). -/
def Members.addLaunch (m : Members) (l n : Nat) : Members :=
  { whole := (l, n) :: m.whole, plus := m.plus, minus := m.minus.filter fun x => x.1 != l }

/-- No member is left. -/
def Members.none? (m : Members) : Bool := m.plus.isEmpty && m.whole.all fun w => w.2 ≤ m.minus.countP fun x => x.1 == w.1

/-- A launch that has ended leaves no trace. -/
def Members.dropLaunch (m : Members) (l : Nat) : Members :=
  { whole := m.whole.filter fun w => w.1 != l, plus := m.plus.filter fun p => p.1 != l, minus := m.minus.filter fun p => p.1 != l }

def Partition.group? (p : Partition) (id : BitVec 32) : Option Group := p.groups.find? fun g => g.id == id

/-- Write back a group; one without a member is dissolved (R154). -/
def Partition.setGroup (p : Partition) (g : Group) : Partition :=
  let rest := p.groups.filter fun x => x.id != g.id
  { p with groups := if g.members.none? then rest else g :: rest }

/-- Groups a thread belongs to. -/
def Partition.groupsOf (p : Partition) (l r : Nat) : List Group := p.groups.filter fun g => g.members.has l r

/-! ### Completing an episode (R155, R351, R460) -/

/-- The order of a launch's acceptance. -/
def Partition.orderOf (p : Partition) (l : Nat) : Nat := ((p.launches.find? fun x => x.id == l).map Launch.order).getD 0

/-- Insert a participant by rank, then by the acceptance of its launch (R460). -/
def insertByRank (p : Partition) (x : Nat × Nat) : List (Nat × Nat) → List (Nat × Nat)
  | [] => [x]
  | y :: ys =>
    if x.2 < y.2 ∨ (x.2 = y.2 ∧ p.orderOf x.1 < p.orderOf y.1) then x :: y :: ys else y :: insertByRank p x ys

def byRank (p : Partition) (l : List (Nat × Nat)) : List (Nat × Nat) := l.foldr (insertByRank p) []

/-- When the participant at position `k` of `n` may leave an episode completed at `t0`, with window `w` nanoseconds (R460). -/
def leaveTime (t0 w k n : Nat) : Nat := if n ≤ 1 then t0 else t0 + (w * k + (n - 2)) / (n - 1)

/-- The participants of a completed episode, each with its earliest time. -/
def leavers (p : Partition) (t0 : Nat) (arrived : List (Nat × Nat)) (result : BitVec 64) : List Leaver :=
  let w := fld p.ishape.toNat 32 14 * 10
  (byRank p arrived).mapIdx fun k x => ⟨x.1, x.2, leaveTime t0 w k arrived.length, result⟩

/-- The latest of versions in serial order. -/
def latestOf : List (BitVec 16) → Option (BitVec 16)
  | [] => none
  | x :: xs => some (xs.foldl (fun a v => if verAfter v a then v else a) x)

/-- The step of the last arrival at a switch: its result, or none while LATEST is before the minimum (R351). -/
def switchStep (s : State) (pn : Nat) (minima : List (BitVec 16)) : Option (BitVec 64 × State) :=
  match s.vtab with
  | none => some (0x8000000000000003, s)
  | some b =>
    let v := latest s.mem b.toNat
    let m := (latestOf minima).getD v
    let p := s.parts.toList.getD pn {}
    if verAfter m v then none
    else if verAfter v p.ver then
      some (v.setWidth 64, { s with mem := pinAll s.mem b.toNat v true }.setPart pn
        { p with ver := v, oldVers := p.oldVers ++ [p.ver.toNat] })
    else some (p.ver.setWidth 64, s)

/-- An episode opens at the first arrival after the completion of the one before: its participants are the members now, of whom the early arrivals
have arrived (R155; log entry 93). -/
def openWith (g : Group) (l : List Early) : Group :=
  { g with
    early := [],
    episode := some { parts := g.members, arrived := (g.early ++ l).map fun (x : Early) => (x.launch, x.rank),
                      switch := (g.early ++ l).any fun (x : Early) => x.switch,
                      minima := (g.early ++ l).filterMap fun (x : Early) => x.min } }

/-- A participant that arrived holds a slot, and is not being saved: the episode waits for one that was pre-empted (R155). -/
def stands (s : State) (pn : Nat) (x : Nat × Nat) : Bool :=
  s.threads.any fun t => t.part == pn && t.launch == x.1 && t.rank == x.2 && !t.run.isSaving

/-- Complete the open episode of a group when every participant has arrived or left. -/
def checkEpisode (s : State) (pn : Nat) (id : BitVec 32) : State :=
  let p := s.parts.toList.getD pn {}
  match p.group? id with
  | none => s
  | some g =>
    match g.episode with
    | none => s
    | some ep =>
      if ep.arrived.length + ep.left.length ≠ ep.parts.count || !(ep.arrived.all (stands s pn)) then s
      else
        match (if ep.switch then switchStep s pn ep.minima else some (0, s)) with
        | none => s.setPart pn (p.setGroup { g with episode := some { ep with waits := true } })
        | some (result, s) =>
          let p := s.parts.toList.getD pn {}
          let g := { g with episode := none, leaving := g.leaving ++ leavers p s.time.toNat ep.arrived result }
          s.setPart pn (p.setGroup g)

/-- An arrival at a group's barrier: it opens an episode, joins the open one, or counts towards the next (R155, R351). -/
def arrive (s : State) (pn : Nat) (g : Group) (l r : Nat) (switch : Bool) (min : Option (BitVec 16)) : State :=
  let p := s.parts.toList.getD pn {}
  let g' := match g.episode with
    | none => openWith g [⟨l, r, switch, min⟩]
    | some ep =>
      if ep.parts.has l r && !ep.left.contains (l, r) then
        { g with episode := some { ep with arrived := ep.arrived ++ [(l, r)], switch := ep.switch || switch,
                                           minima := ep.minima ++ min.toList } }
      else { g with early := g.early ++ [⟨l, r, switch, min⟩] }
  checkEpisode (s.setPart pn (p.setGroup g')) pn g.id

/-- A member leaves a group, which may complete its episode (R154, R155). -/
def leaveGroup (s : State) (pn : Nat) (g : Group) (l r : Nat) : State :=
  let p := s.parts.toList.getD pn {}
  let ep' := g.episode.map fun (ep : Episode) =>
    if ep.parts.has l r && !ep.arrived.contains (l, r) && !ep.left.contains (l, r) then { ep with left := ep.left ++ [(l, r)] } else ep
  let s := s.setPart pn (p.setGroup { g with members := g.members.drop l r, episode := ep' })
  checkEpisode s pn g.id

/-- A participant that arrived leaves the completed episode: at its time, and after those before it that hold slots (R155, R460). -/
def takeLeave (s : State) (t : Thread) (id : BitVec 32) : Option (BitVec 64 × State) :=
  let p := s.partOf t
  match p.group? id with
  | none => none
  | some g =>
    let me (x : Leaver) : Bool := x.launch == t.launch && x.rank == t.rank
    match g.leaving.find? me with
    | none => none
    | some x =>
      let before := g.leaving.takeWhile fun y => !me y
      let placed := before.any fun y => s.threads.any fun u => u.part == t.part && u.launch == y.launch && u.rank == y.rank
      if x.time ≤ s.time.toNat && !placed then
        some (x.result, s.setPart t.part (p.setGroup { g with leaving := g.leaving.filter fun y => !me y }))
      else none

end
end Sys2Proof.Machine
end

