-- ==== Sys2Proof/Machine/Launching.lean ====
section
/-! DEFINITION. Launch records and accepted launches (spec/02_assembly_language.md R44; spec/06_control_threads.md R147, R148;
spec/21_power_host_and_management.md R465). -/

namespace Sys2Proof.Machine
open Sys2Proof

noncomputable section

/-- A launch record (R44). -/
structure LaunchRec where
  entry : BitVec 64
  args : BitVec 64
  count : Nat
  part : Nat
  flags : Nat
  group : BitVec 32
  /-- the reserved bytes are zero -/
  clean : Bool
  deriving DecidableEq, Repr

def parseLaunch (bs : List (BitVec 8)) : LaunchRec :=
  let w (k n : Nat) : Nat := ofBytesLE ((bs.drop k).take n)
  { entry := .ofNat 64 (w 0 8), args := .ofNat 64 (w 8 8), count := w 16 4, part := w 20 1, flags := w 21 1,
    group := .ofNat 32 (w 24 4), clean := w 22 2 == 0 && w 28 4 == 0 }

def LaunchRec.prio (r : LaunchRec) : BitVec 2 := BitVec.ofNat 2 (fld r.flags 0 2)
def LaunchRec.preempt (r : LaunchRec) : Bool := bitAt r.flags 2
def LaunchRec.det (r : LaunchRec) : Bool := bitAt r.flags 3

/-- The limits of check −3 (R147). -/
def LaunchRec.sound (r : LaunchRec) : Bool :=
  1 ≤ r.count && r.count ≤ 1048576 && !r.entry.getLsbD 0 && r.clean && fld r.flags 4 4 == 0

/-- The record names a valid partition (R147). -/
def LaunchRec.partOk (s : State) (r : LaunchRec) : Bool := r.part < 16 && (s.parts.toList.getD r.part {}).valid

/-- The launch queue of its partition is full. -/
def LaunchRec.queueFull (s : State) (r : LaunchRec) : Bool := 4096 ≤ (s.parts.toList.getD r.part {}).launches.length

/-- The group table of its partition has no place for the group the record names (R154). -/
def LaunchRec.tableFull (s : State) (r : LaunchRec) : Bool :=
  let p := s.parts.toList.getD r.part {}
  r.group != 0 && (p.group? r.group).isNone && 1024 ≤ p.groups.length

/-- The first number from a start that no live launch of the partition has. -/
def freshFrom (used : List Nat) : Nat → Nat → Nat
  | 0, k => k
  | n + 1, k => if used.contains (k % 2 ^ 32) then freshFrom used n (k + 1) else k % 2 ^ 32

/-- An identifier unique among the partition's live launches (R147; log entry 26). -/
def freshLaunch (s : State) (p : Partition) : Nat :=
  let used := p.launches.map Launch.id
  freshFrom used (used.length + 1) (Config.launchId s.ctr).toNat

/-- Accept a launch (R148): its record, and its threads members of its group at once. The live launches stand in the partition's list; the
model writes nothing into the launch queue's bytes at LQBASE, whose layout R145 leaves to the scheduler (log entry 97). -/
def accept (s : State) (r : LaunchRec) (pe : Bool) (aspace : BitVec 64) : Nat × State :=
  let p := s.parts.toList.getD r.part {}
  let id := freshLaunch s p
  let l : Launch :=
    { id := id, order := s.accepted, entry := r.entry, args := r.args, count := r.count, group := r.group, prio := r.prio,
      preempt := r.preempt, det := r.det, pe := pe, aspace := aspace }
  let p := { p with launches := p.launches ++ [l] }
  let p := if r.group = 0 then p else
    let g := (p.group? r.group).getD { id := r.group }
    p.setGroup { g with members := g.members.addLaunch id r.count }
  (id, ({ s with accepted := s.accepted + 1 }.tick).setPart r.part p)

end
end Sys2Proof.Machine
end

