-- ==== Sys2Proof/Machine/Streams.lean ====
section
/-! DEFINITION. The CTL major: binding and positions of streams, STBAR, WAITC, BSET, TCFG, CHWAIT, NSET and NSIG
(spec/10_stream_blocks_and_queues.md R251 to R256, R266; spec/11_scratchpads_and_vector_memory.md R286;
spec/12_banks_and_plural_addressing.md R296, R310, R321; spec/19_fabric_collectives_and_time.md R414 to R416). -/

namespace Sys2Proof.Machine
open Sys2Proof

noncomputable section

/-! ### One C-stream access to a block of bytes -/

/-- The bytes of a block, a wait for a tile, or the fault of its first failing part. -/
inductive BlockRead where
  | ok (bs : List (BitVec 8)) (s : State)
  | wait (s : State)
  | bad (tr : Trap) (s : State)
  deriving DecidableEq, Repr

/-- Read `n` pieces of 32 bytes from an address aligned to 32. -/
def readBlockC (t : Thread) : Nat → BitVec 64 → State → BlockRead
  | 0, _, s => .ok [] s
  | n + 1, va, s =>
    match locate s (t.who s) va .read false with
    | (.at l, s) =>
      match readBlockC t n (va + 32) s with
      | .ok bs s' => .ok (bytesLE 32 (loadT s t l 32) ++ bs) s'
      | r => r
    | (.wait, s) => .wait s
    | (.bad tr, s) => .bad tr s

/-! ### SBIND (R250 to R254) -/

def parseStream (bs : List (BitVec 8)) : StreamDesc :=
  let w (k n : Nat) : Nat := ofBytesLE ((bs.drop k).take n)
  { base := .ofNat 64 (w 0 8), strides := (List.range 6).map fun j => .ofNat 64 (w (8 + 8 * j) 8),
    bounds := (List.range 6).map fun j => .ofNat 32 (w (56 + 4 * j) 4),
    ndim := .ofNat 8 (w 80 1), fmt := .ofNat 8 (w 81 1), dir := .ofNat 8 (w 82 1), grp := .ofNat 8 (w 83 1) }

/-- The content checks of R251. DEDUCED: a FMT byte of 16 to 255 is refused as 13 to 15 are, since no rule gives it a format (log entry 98). -/
def streamDescOk (bs : List (BitVec 8)) : Bool :=
  let w (k n : Nat) : Nat := ofBytesLE ((bs.drop k).take n)
  let nd := w 80 1
  let sz := (MFmt.ofCode (w 81 1)).bytes
  1 ≤ nd && nd ≤ 6 && w 81 1 < 13 && w 82 1 ≤ 1 && w 83 1 ≤ 3 && w 84 12 == 0
    && (List.range 6).all (fun j => j < nd || (w (8 + 8 * j) 8 == 0 && w (56 + 4 * j) 4 == 0))
    && w 0 8 % sz == 0 && (List.range 6).all fun j => w (8 + 8 * j) 8 % sz == 0

/-- A vector register group shares a register with a bound stream block or a bound queue register (R254). -/
def Thread.vecBound (t : Thread) (r : BitVec 6) (g : Nat) : Bool :=
  let o : Opnd := ⟨r, g, 0⟩
  (t.blocks.any fun b => (⟨b.reg, b.group, 0⟩ : Opnd).overlaps o)
    || (List.range 8).any fun i => match (t.qAt i).vector with
      | some v => (⟨v, 1, 0⟩ : Opnd).overlaps o
      | none => false

def Thread.blk (t : Thread) (n : BitVec 3) : Option StreamBlk := (t.streams.toList[n.toNat]?).getD none
def Thread.setBlk (t : Thread) (n : BitVec 3) (b : Option StreamBlk) : Thread :=
  { t with streams := t.streams.setIfInBounds n.toNat b }

/-- SBIND: the checks in the order of R254; the first takes in that vD is a register of the present split (log entry 95). -/
def execSbind (p : Pre) (n : BitVec 3) (a d : Reg) (s : State) : Out :=
  let i := Instr.sbind p n a d
  let r := reg6 (preDh p) d
  issue i [a] [] s fun t u =>
    let va := t.src a
    if (t.blk n).isSome || nregsOf t.splitC ≤ r.toNat || t.vecBound r 1 then illegal s t i
    else if !aligned va 32 then misaligned s t i va 1
    else match readBlockC t 3 va s with
      | .wait s' => wait s' t i
      | .bad tr s' => scalarTrap s' t i tr
      | .ok bs s' =>
        if !streamDescOk bs then scalarTrap s' t i { code := 14, addr := va, acc := 1 }
        else
          let dsc := parseStream bs
          let g := 2 ^ dsc.grp.toNat
          if r.toNat % g ≠ 0 ∨ nregsOf t.splitC < r.toNat + g ∨ t.vecBound r g then illegal s' t i
          else done s' (u.setBlk n (some { desc := dsc, reg := r, pos := 0 })) i

/-- SBIND.Q of a general register (R252, R254). -/
def execSbindQGeneral (p : Pre) (n : BitVec 3) (d : Reg) (s : State) : Out :=
  let i := Instr.sbindQGeneral p n d
  issue i [] [] s fun t u =>
    if (t.qAt n.toNat).general.isSome || (t.boundQ d).isSome then illegal s t i
    else done s (u.setQ n.toNat { u.qAt n.toNat with general := some d }) i

/-- SBIND.Q of a vector register (R252, R254); one beyond the present split is accepted (log entry 95). -/
def execSbindQVector (p : Pre) (n : BitVec 3) (d : Reg) (s : State) : Out :=
  let i := Instr.sbindQVector p n d
  let r := reg6 (preDh p) d
  issue i [] [] s fun t u =>
    if (t.qAt n.toNat).vector.isSome || t.vecBound r 1 then illegal s t i
    else done s (u.setQ n.toNat { u.qAt n.toNat with vector := some r }) i

/-- SUNBIND (R256). -/
def execSunbind (p : Pre) (n : BitVec 3) (d : Reg) (s : State) : Out :=
  let i := Instr.sunbind p n d
  issue i [] [d] s fun t u =>
    match t.blk n with
    | none => illegal s t i
    | some b => done s ((u.setBlk n none).result d b.pos) i

/-- SUNBIND.Q (R256). -/
def execSunbindQ (p : Pre) (n : BitVec 3) (d : Reg) (s : State) : Out :=
  let i := Instr.sunbindQ p n d
  issue i [] [] s fun t u =>
    let q := t.qAt n.toNat
    if q.general.isNone && q.vector.isNone then illegal s t i
    else if t.isPending d then wait s t i
    else
      let u := u.setQ n.toNat { q with general := none, vector := none }
      if u.dstFull [] d then wait s t i else done s (u.result d (BitVec.ofNat 64 q.entries.length)) i

/-- SSKIP (R255). -/
def execSskip (p : Pre) (n : BitVec 3) (a : Reg) (s : State) : Out :=
  let i := Instr.sskip p n a
  issue i [a] [] s fun t u =>
    match t.blk n with
    | none => illegal s t i
    | some b => done s (u.setBlk n (some (b.skip (t.src a).toNat))) i

/-- SPOS (R255). -/
def execSpos (p : Pre) (n : BitVec 3) (d : Reg) (s : State) : Out :=
  let i := Instr.spos p n d
  issue i [] [d] s fun t u =>
    match t.blk n with
    | none => illegal s t i
    | some b => done s (u.result d b.pos) i

/-! ### STBAR, WAITC, CHWAIT -/

/-- Entries that start an engine operation: a move, a CHRUN, and a replay whose chain holds one. -/
def startsEngine (t : Thread) (e : QEntry) : Bool :=
  match qForm e.instr with
  | .x _ .tmov => true
  | .m _ .chrun => true
  | .v _ .replay => t.chain.any fun c => match c.instr with
    | .chrun _ => true
    | _ => false
  | _ => false

/-- Every access of the listed streams is performed (R253, R266); the stores that the C stream holds are performed first (log entry 28). -/
def stbarReady (s : State) (t : Thread) (list : Nat) : Bool :=
  (!bitAt list 1 || t.queue.isEmpty)
    && (!bitAt list 2 || (t.owed.isEmpty && t.queue.all fun e => e.blks.isEmpty))
    && (!bitAt list 3 || ((s.movesOf t).isEmpty && (s.chrunsOf t).isEmpty && !t.queue.any (startsEngine t)))

/-- STBAR (R266). -/
def execStbar (p : Pre) (sb : BitVec 4) (s : State) : Out :=
  let i := Instr.stbar p sb
  issue i [] [] s fun t u => if stbarReady s t sb.toNat then done s u i else wait s t i

/-- WAITC: until the word's STATUS is not zero (R286). -/
def execWaitc (p : Pre) (a d : Reg) (s : State) : Out :=
  let i := Instr.waitc p a d
  issue i [a] [d] s fun t u =>
    let va := t.src a
    if !aligned va 8 then misaligned s t i va 1
    else match locate s (t.who s) va .read false with
      | (.wait, s') => wait s' t i
      | (.bad tr, s') => scalarTrap s' t i tr
      | (.at l, s') =>
        let w := loadT s' t l 8
        if w % 256 = 0 then wait s' t i else done s' (u.result d (BitVec.ofNat 64 w)) i

/-- The entry still has to start a CHRUN, its own or one of its chain. -/
def owesRuns (t : Thread) (e : QEntry) : Bool :=
  !e.done && startsEngine t e && match qForm e.instr with
    | .x _ _ => false
    | _ => true

/-- CHWAIT: every run of the entries pushed before it has ended; they need not have committed (R321). -/
def execChwait (p : Pre) (d : Reg) (s : State) : Out :=
  let i := Instr.chwait p d
  issue i [] [d] s fun t u =>
    if t.chOut ≠ 0 || t.queue.any (owesRuns t) then wait s t i
    else
      let v := if t.chStatus = 0 then 1 else t.chStatus.toNat + t.chFlags.toNat * 256
      done s ({ u with chStatus := 0, chFlags := 0 }.result d (BitVec.ofNat 64 v)) i

/-! ### BSET, TCFG -/

/-- BSET (R296). -/
def execBset (p : Pre) (b a d : Reg) (s : State) : Out :=
  let i := Instr.bset p b a d
  issue i [a, b] [] s fun t u =>
    let base := t.src a
    let v := (t.src b).toNat
    let cnt := fld v 0 12
    let lg := fld v 16 6
    let top := fld base.toNat 56 8
    if fld v 22 42 ≠ 0 ∨ fld v 12 4 ≠ 0 ∨ cnt = 0 ∨ 2048 < cnt ∨ lg < 12 ∨ 40 < lg ∨ (top ≠ 0 ∧ top ≠ 255) then illegal s t i
    else done s { u with b := u.b.setIfInBounds d.toNat (BitVec.ofNat 128 (base.toNat * 2 ^ 64 + v)) } i

/-- TCFG (R310). -/
def execTcfg (p : Pre) (b a : Reg) (s : State) : Out :=
  let i := Instr.tcfg p b a
  issue i [a, b] [] s fun t u =>
    let v := (t.src a).toNat
    let ad := t.src b
    if fld v 6 58 ≠ 0 ∨ 1 < fld v 4 2 ∨ (bitAt v 3 ∧ fld v 0 3 ≠ 0) ∨ (fld v 4 2 = 1 ∧ ad.toNat % 8 ≠ 0) then illegal s t i
    else done s { u with tree := t.src a, treeAddr := ad } i

/-! ### NSET, NSIG -/

def Thread.grp (t : Thread) (r : Reg) : BitVec 256 := t.n.toList.getD r.toNat 0

/-- NSET (R415). -/
def execNset (p : Pre) (a d : Reg) (s : State) : Out :=
  let i := Instr.nset p a d
  issue i [a] [] s fun t u =>
    let va := t.src a
    if !aligned va 32 then misaligned s t i va 1
    else match readBlockC t 1 va s with
      | .wait s' => wait s' t i
      | .bad tr s' => scalarTrap s' t i tr
      | .ok bs s' =>
        let w (k n : Nat) : Nat := ofBytesLE ((bs.drop k).take n)
        let count := w 12 4
        let rank := if w 8 4 = 2 ^ 32 - 1 then t.rank else w 8 4
        if count = 0 ∨ 2 ^ 20 < count ∨ count ≤ rank ∨ 7 < w 16 1 ∨ w 17 3 ≠ 0 ∨ w 24 8 ≠ 0 then
          scalarTrap s' t i { code := 16, addr := va, acc := 1 }
        else
          let comm := BitVec.ofNat 64 (w 0 8)
          let plan := BitVec.ofNat 32 (w 20 4)
          let vc := BitVec.ofNat 3 (w 16 1)
          let g := mkGroup 0 (groupSig comm (BitVec.ofNat 32 count) plan vc) plan vc (BitVec.ofNat 32 count) (BitVec.ofNat 32 rank) comm
          done s' { u with n := u.n.setIfInBounds d.toNat g } i

/-- NSET.F (R416). -/
def execNsetF (p : Pre) (b a d : Reg) (s : State) : Out :=
  let i := Instr.nsetF p b a d
  issue i [b] [] s fun t u =>
    let g := t.grp a
    let v := (t.src b).toNat
    if !grpValid g || fld v 49 15 ≠ 0 || (grpCount g).toNat ≤ fld v 0 32 then scalarTrap s t i { code := 16 }
    else
      let r := mkStreamReg (grpSig g) (grpPlan g) (bitAt v 48) (grpVc g) (BitVec.ofNat 16 (fld v 32 16))
        (BitVec.ofNat 32 (fld v 0 32)) (grpRank g) (grpComm g)
      done s { u with f := u.f.setIfInBounds d.toNat r } i

/-- A field of a group register, zero where it is not valid (R414). -/
def readGroup (i : Instr) (a d : Reg) (v : BitVec 256 → BitVec 32) (s : State) : Out :=
  compute i [] d s fun t => if grpValid (t.grp a) then (v (t.grp a)).setWidth 64 else 0

/-- NSIG (R414). -/
def execNsig (p : Pre) (a d : Reg) (s : State) : Out := readGroup (.nsig p a d) a d grpSig s
/-- NSIG.RANK (R414). -/
def execNsigRank (p : Pre) (a d : Reg) (s : State) : Out := readGroup (.nsigRank p a d) a d grpRank s
/-- NSIG.COUNT (R414). -/
def execNsigCount (p : Pre) (a d : Reg) (s : State) : Out := readGroup (.nsigCount p a d) a d grpCount s
/-- NSIG.SEQ (R414). -/
def execNsigSeq (p : Pre) (a d : Reg) (s : State) : Out := readGroup (.nsigSeq p a d) a d grpSeq s

end
end Sys2Proof.Machine
end

