-- ==== Sys2Proof/Machine/Sys.lean ====
section
/-! DEFINITION. The SYS major but for MFS and MTS, and LOOPN (spec/05_general_registers.md R138 to R142;
spec/15_address_translation.md R369, R370; spec/16_atomics_and_synchronisation.md R382, R386, R387;
spec/20_traps_and_context.md R443 to R446). -/

namespace Sys2Proof.Machine
open Sys2Proof

noncomputable section

/-! ### LOOPN -/

/-- LOOPN: counts captured, the body fetched and checked, and the nest begun, or skipped where a count is zero (R139, R141). -/
def execLoopn (n : BitVec 4) (b a d : Reg) (s : State) : Out :=
  let i := Instr.loopn n b a d
  let regs := (List.range n.toNat).map fun j => a + BitVec.ofNat 5 j
  issue i regs [] s fun t u =>
    match fillLoop (t.who s) (b.toNat + 1) (t.pc + 4) s with
    | .wait s' => wait s' t i
    | .bad tr s' => scalarTrap s' t i tr
    | .ok body s' =>
      let counts : List (BitVec 32) := regs.map fun r => (t.src r).setWidth 32
      if counts.any (· == 0) then .next (s'.setThread { u with pc := body.2, nest := none })
      else
        .next (s'.setThread (u.startIter
          { counts := counts, tuple := counts.map fun _ => 0, start := t.pc + 4, after := body.2, body := body.1, pos := 0,
            d := d, a := a }))

/-! ### Traps and halts -/

/-- TRAP n: cause 32 + n, with EPC its own address and PC the address after it (R443, R444). -/
def execTrap (b : Reg) (s : State) : Out :=
  let i := Instr.trap b
  issue i [] [] s fun t _ => raiseAt s t { code := 32 + b.toNat } (t.pc + 4) t.pc (wait s t i)

/-- Stop a thread whose vector side has stopped in the halted state: its frame block is written and no handler is entered (R445; R449 for
an image that cannot be resumed). -/
def haltThread (s : State) (t : Thread) (dbl : Bool) : State :=
  let cause := causeWord { code := 21 } false t.sup false t.nest.isSome dbl false
  let fl := flushAll s t
  let m := writeFrame fl.1.mem (s.frameBase t) fl.2 ⟨cause, t.pc, t.pc, 0, 0⟩
  ({ fl.1 with mem := m }.setThread { fl.2.stopped with run := .halted }).haltReport t.slot

/-- HALT: halted under a debugger, else Breakpoint (R445). -/
def execHalt (s : State) : Out :=
  issue .halt [] [] s fun t _ =>
    if (s.partOf t).debugger then
      if !canStop s t then wait s t .halt
      else let r := stopVector s t; .next (haltThread r.1 r.2 false)
    else scalarTrap s t .halt { code := 21 }

/-! ### Returning -/

/-- A saved entry with what the frame does not hold of the entry that was set aside: the stream blocks and queue registers that it was
pushed under, and, where the thread resumes without a trap, the fault that it met (R255, R263, R446, R449). -/
def QEntry.relink (e h : QEntry) (faults : Bool) : QEntry :=
  let e := { e with blks := h.blks, qs := h.qs, subPopped := h.subPopped, repPos := h.repPos }
  if faults && h.fault.isSome then { e with started := true, fault := h.fault, skip := h.skip } else e

/-- The entries of a frame; one that the handler put there touches what is bound now. -/
def frameEntries (t : Thread) (bs : List (BitVec 8)) (faults : Bool) : List QEntry :=
  (List.range (word64 bs 48)).filterMap fun k =>
    (readEntry (entryBytes bs k)).map fun e =>
      match t.held[k]? with
      | some h => if h.instr = e.instr then e.relink h faults else e.link t t.splitV
      | none => e.link t t.splitV

/-- Resume a thread from a frame block that `frameOk` admits; a running nest has its body fetched again (R142, R446). -/
def resumeFrame (s : State) (t : Thread) (bs : List (BitVec 8)) (faults : Bool) : Fetched Thread :=
  let es := frameEntries t bs faults
  if bitAt (word64 bs 0) 13 then
    let n := frameNest bs
    let w : Who := { t.who s with sup := bitAt (word64 bs 0) 9 }
    match fillLoop w (frameNestLen bs) n.start s with
    | .ok body s' => .ok (returnFrom t bs (some { n with body := body.1, after := body.2 }) es) s'
    | .wait s' => .wait s'
    | .bad tr s' => .bad tr s'
  else .ok (returnFrom t bs none es) s

/-- ERET: it reads the frame block with the stores that the thread holds (R133, R446). -/
def execEret (s : State) : Out :=
  issue .eret [] [] s fun t u =>
    if !t.sup then illegal s t .eret
    else afterVcp .eret s t <|
      let bs := (performOwed s.mem t.cbuf).readBytes (s.frameBase t) 0x4000
      if !frameOk bs then illegal s t .eret
      else match resumeFrame s { u with arrived := false } bs false with
        | .ok v s' => .next (s'.setThread v)
        | .wait s' => wait s' t .eret
        | .bad tr s' => scalarTrap s' t .eret tr

/-! ### Fences and instruction fetch -/

/-- The stores that write streams owe for a thread are performed (R259). -/
def afterOwed (i : Instr) (s : State) (t : Thread) (k : Out) : Out := if t.owed.isEmpty then k else wait s t i

/-- FENCE: every access of this model is performed at every scope when it is performed at its home (R382, R406). -/
def execFence (sc : BitVec 3) (s : State) : Out :=
  let i := Instr.fence sc
  issue i [] [] s fun t u => afterVcp i s t (afterOwed i s t (withDrain s t i (done s u i)))

/-- IFLUSH: copies of the range leave the facet's buffer, and what the thread has fetched ahead is fetched again (R386). -/
def execIflush (b a : Reg) (s : State) : Out :=
  let i := Instr.iflush b a
  issue i [a, b] [] s fun t u => done (flushCode s t.slot (t.src a) (t.src b)) u i

/-- ISYNC: every buffer of the package is emptied, and every thread discards what it has fetched ahead (R387). -/
def execIsync (s : State) : Out := issue .isync [] [] s fun _ u => done { s with code := [] } u .isync

/-- An access of the thread that used a translation is still to be performed: a store that is owed or held, one of an entry that has passed
its run-ahead step, or bytes combined through a removed translation (R259, R370, R405). -/
def Thread.translated (hit : StoredVia → Bool) (t : Thread) : Bool :=
  !t.owed.isEmpty || !t.vbuf.isEmpty || t.cvia.any hit || t.combVia.any hit || t.queue.any fun e => !e.pages.isEmpty

/-- No access that used a removed translation is still to be performed (R370; log entry 89). -/
def translationsDone (s : State) (hit : StoredVia → Bool) : Bool :=
  !(s.threads.any (Thread.translated hit)) && !(s.saved.any fun v => v.thread.translated hit) && s.chruns.isEmpty

/-- Prepared strips are discarded, and read again (R365, R370). -/
def Thread.dropStrips (t : Thread) : Thread := { t with queue := t.queue.map fun (e : QEntry) => { e with strips := [] } }
def dropStrips (s : State) : State := { s with threads := s.threads.map Thread.dropStrips }

/-- TLBINV (R369, R370). -/
def execTlbinv (b a : Reg) (s : State) : Out :=
  let i := Instr.tlbinv b a
  issue i [a, b] [] s fun t u =>
    if !t.sup || fld (t.src b).toNat 16 48 ≠ 0 then illegal s t i
    else if translationsDone s (fun v => v.hit (t.src a) ((t.src b).setWidth 16)) then
      done (dropStrips (dropPage s (t.src a) ((t.src b).setWidth 16))) u.dropStrips i
    else wait s t i

/-- TLBINV.A (R369, R370). -/
def execTlbinvA (a : Reg) (s : State) : Out :=
  let i := Instr.tlbinvA a
  issue i [a] [] s fun t u =>
    if !t.sup || fld (t.src a).toNat 16 47 ≠ 0 then illegal s t i
    else if translationsDone s (fun v => v.hitAll (t.src a)) then done (dropStrips (dropSpace s (t.src a))) u.dropStrips i
    else wait s t i

end
end Sys2Proof.Machine
end

