-- ==== Sys2Proof/Machine/Threads.lean ====
section
/-! DEFINITION. The THR major: launching, groups and barriers, work queues, claimed iterations, ending, yielding and waiting
(spec/06_control_threads.md R146 to R162). -/

namespace Sys2Proof.Machine
open Sys2Proof

noncomputable section

/-! ### SPAWN (R147) -/

/-- What SPAWN writes, and the state after it; the checks in the order −2, −1, −3, −4, −5. -/
def spawnResult (s : State) (t : Thread) (r : LaunchRec) : BitVec 64 × State :=
  if !r.partOk s || (!t.sup && r.part != t.part) then (-2, s)
  else if r.queueFull s then (-1, s)
  else if !r.sound then (-3, s)
  else if t.prioMax.toNat < r.prio.toNat || (r.preempt && !t.pe) then (-4, s)
  else if r.tableFull s then (-5, s)
  else
    let a := accept s r t.pe t.aspace
    (BitVec.ofNat 64 a.1, a.2)

/-- SPAWN (R147). -/
def execSpawn (a d : Reg) (s : State) : Out :=
  let i := Instr.spawn a d
  issue i [a] [d] s fun t u =>
    let va := t.src a
    if !aligned va 32 then misaligned s t i va 1
    else afterVcp i s t <|
      match readBlockC t 1 va s with
      | .wait s' => wait s' t i
      | .bad tr s' => scalarTrap s' t i tr
      | .ok bs s' => withDrain s' t i <|
        let r := spawnResult s' t (parseLaunch bs)
        done r.2 (u.result d r.1) i

/-! ### EXIT (R159) -/

/-- Leave every group of the thread (R159). -/
def leaveAll (s : State) (pn l r : Nat) : List (BitVec 32) → State
  | [] => s
  | id :: ids =>
    match (s.parts.toList.getD pn {}).group? id with
    | some g => leaveAll (leaveGroup s pn g l r) pn l r ids
    | none => leaveAll s pn l r ids

/-- The launch counts an exit; its record is freed by its last (R148, R159). -/
def launchExit (p : Partition) (l r : Nat) : Partition :=
  match p.launches.find? fun x => x.id == l with
  | none => p
  | some x =>
    if x.exited + 1 = x.count then
      { p with launches := p.launches.filter fun y => y.id != l,
               groups := (p.groups.map fun (g : Group) => { g with members := g.members.dropLaunch l }).filter fun g =>
                 !g.members.none? }
    else p.setLaunch { x with exited := x.exited + 1, gone := r :: x.gone, drains := x.drains.filter fun d => d.1 != r }

/-- The thread ends: its groups, its slot and its tiles are given up (R144, R159, R229). -/
def endThread (s : State) (t : Thread) : State :=
  let ids := ((s.partOf t).groupsOf t.launch t.rank).map Group.id
  let s := leaveAll s t.part t.launch t.rank ids
  let s := s.setPart t.part (launchExit (s.partOf t) t.launch t.rank)
  { s with threads := s.threads.filter fun u => u.slot != t.slot }

/-- EXIT (R159, R406). -/
def execExit (s : State) : Out :=
  issue .exit [] [] s fun t u => afterVcp .exit s t (afterOwed .exit s t (withDrain s t .exit (.next (endThread s u))))

/-! ### Groups and barriers (R154, R155) -/

/-- The identifier in a register names a group at all. -/
def groupIdOk (v : BitVec 64) : Bool := v != 0 && v.extractLsb' 32 32 == 0

/-- JOIN (R154): the first code in the order 4, 1, 3, 2. -/
def execJoin (a d : Reg) (s : State) : Out :=
  let i := Instr.join a d
  issue i [a] [d] s fun t u =>
    let v := t.src a
    let id : BitVec 32 := v.setWidth 32
    let p := s.partOf t
    let g := p.group? id
    if !groupIdOk v then done s (u.result d 4) i
    else if (g.map fun g => g.members.has t.launch t.rank) == some true then done s (u.result d 1) i
    else if 8 ≤ (p.groupsOf t.launch t.rank).length then done s (u.result d 3) i
    else if g.isNone && 1024 ≤ p.groups.length then done s (u.result d 2) i
    else
      let g := g.getD { id := id }
      done (s.setPart t.part (p.setGroup { g with members := g.members.add t.launch t.rank })) (u.result d 0) i

/-- LEAVE (R154). -/
def execLeave (a d : Reg) (s : State) : Out :=
  let i := Instr.leave a d
  issue i [a] [d] s fun t u =>
    let v := t.src a
    let id : BitVec 32 := v.setWidth 32
    if !groupIdOk v then done s (u.result d 4) i
    else match (s.partOf t).group? id with
      | some g =>
        if g.members.has t.launch t.rank then done (leaveGroup s t.part g t.launch t.rank) (u.result d 0) i
        else done s (u.result d 1) i
      | none => done s (u.result d 1) i

/-- Arrive at a group's episode and leave it when it is complete; a non-member writes `outside` (R155, R351). -/
def barrier (i : Instr) (a d : Reg) (s : State) (t u : Thread) (switch : Bool) (min : Option (BitVec 16)) (outside : BitVec 64)
    (result : BitVec 64 → BitVec 64) : Out :=
  let v := t.src a
  let id : BitVec 32 := v.setWidth 32
  let go (s : State) : Out :=
    match takeLeave s t id with
    | some (r, s) => done s (u.result d (result r)) i
    | none => wait s { t with arrived := true } i
  if t.arrived then go (checkEpisode s t.part id)
  else
    match (if groupIdOk v then (s.partOf t).group? id else none) with
    | some g =>
      if g.members.has t.launch t.rank then go (arrive s t.part g t.launch t.rank switch min)
      else done s (u.result d outside) i
    | none => done s (u.result d outside) i

/-- What an arrival does before it counts: earlier entries have committed, and the implicit drain (R155, R406). -/
def beforeArrival (i : Instr) (s : State) (t : Thread) (k : Out) : Out :=
  if t.arrived then k else afterVcp i s t (withDrain s t i k)

/-- BARG (R155). -/
def execBarg (a d : Reg) (s : State) : Out :=
  let i := Instr.barg a d
  issue i [a] [d] s fun t u => beforeArrival i s t (barrier i a d s t u false none 1 (fun _ => 0))

/-! ### Work queues (R156, R157) -/

/-- WPUSH (R156, R406). -/
def execWpush (a d : Reg) (s : State) : Out :=
  let i := Instr.wpush a d
  issue i [a] [d] s fun t u => withDrain s t i <|
    let v := t.src a
    let f := s.facet t.facet
    if v.getLsbD 63 then done s (u.result d 2) i
    else if 256 ≤ f.items.length then done s (u.result d 1) i
    else done (s.setFacet t.facet { f with items := f.items ++ [v.setWidth 63] }) (u.result d 0) i

def emptyQueue : BitVec 64 := 0x8000000000000001
def refusedVictim : BitVec 64 := 0x8000000000000002

/-- WPOP: the owner end (R156). -/
def execWpop (d : Reg) (s : State) : Out :=
  let i := Instr.wpop d
  issue i [] [d] s fun t u =>
    let f := s.facet t.facet
    match f.items.getLast? with
    | none => done s (u.result d emptyQueue) i
    | some x => done (s.setFacet t.facet { f with items := f.items.dropLast }) (u.result d (x.setWidth 64)) i

/-- A facet belongs to a partition (R145). -/
def Partition.hasFacet (p : Partition) (f : Nat) : Bool := f < Config.facets && p.clusters.getLsbD (f / Config.facetsPerCluster)

/-- Take the item at the steal end of a facet's queue. -/
def stealFrom (s : State) (i : Instr) (u : Thread) (d : Reg) (v : Nat) : Out :=
  let f := s.facet v
  match f.items with
  | [] => done s (u.result d emptyQueue) i
  | x :: xs => done (s.setFacet v { f with items := xs }) (u.result d (x.setWidth 64)) i

/-- The first facet after the cursor with an item, in ascending index with wrap (R157). -/
def stealVictim (s : State) (p : Partition) (own cursor : Nat) : Option Nat :=
  let c := (s.facets.map Prod.fst).filter fun f => p.hasFacet f && f != own && !(s.facet f).items.isEmpty
  let dist (f : Nat) : Nat := (f + Config.facets - cursor - 1) % Config.facets
  c.foldl (fun best f => match best with
    | none => some f
    | some b => if dist f < dist b then some f else some b) none

/-- WSTEAL (R156, R157). -/
def execWsteal (a d : Reg) (s : State) : Out :=
  let i := Instr.wsteal a d
  issue i [a] [d] s fun t u =>
    let v := t.src a
    let p := s.partOf t
    if v.getLsbD 63 then
      let own := s.facet t.facet
      match stealVictim s p t.facet own.cursor with
      | none => done s (u.result d emptyQueue) i
      | some f => stealFrom (s.setFacet t.facet { own with cursor := f }) i u d f
    else if v.toNat = t.facet || !p.hasFacet v.toNat then done s (u.result d refusedVictim) i
    else stealFrom s i u d v.toNat

/-! ### CLAIM (R158) -/

/-- CLAIM: one read-modify-write of the counter, and VL := the grant. -/
def execClaim (b a d : Reg) (s : State) : Out :=
  let i := Instr.claim b a d
  issue i [a, b] [d] s fun t u =>
    let va := t.src a
    if !aligned va 16 then misaligned s t i va 2
    else match locate s (t.who s) va .atomic false with
      | (.wait, s') => wait s' t i
      | (.bad tr, s') => scalarTrap s' t i tr
      | (.at l, s') =>
        let w := loadHome s' l 16
        let next := w % 2 ^ 64
        let last := w / 2 ^ 64
        let top := vlmax t.vtype t.splitC
        let req := (t.src b).toNat
        let req := if req = 0 ∨ top < req then top else req
        let grant := if next < last then min req (last - next) else 0
        let s'' := storeHome s' t.part l 16 ((next + grant) % 2 ^ 64 + last * 2 ^ 64)
        done s'' ({ u with vl := BitVec.ofNat 14 grant }.result d (BitVec.ofNat 64 next)) i

/-! ### YIELD (R160) -/

/-- Threads of the facet, other than one, whose control pipeline can issue. -/
def canIssue (s : State) (t : Thread) : List Nat :=
  (s.threads.filter fun u => u.facet == t.facet && u.slot != t.slot && u.issues).map Thread.slot

/-- A thread of the partition waits for a slot with at least this priority: a saved one, or one never placed (R160). -/
def someoneWaits (s : State) (t : Thread) : Bool :=
  (s.saved.any fun v => v.thread.part == t.part && t.level.toNat ≤ v.thread.level.toNat)
    || (s.partOf t).launches.any fun l => l.next < l.count && t.level.toNat ≤ l.prio.toNat

/-- Pop an image address; none where the list is empty, or holds what is no free image of the partition (R11, R436, R449). -/
def popImage (s : State) (p : Partition) : Option (Nat × Memory) :=
  let free := p.freeList.toNat
  let n := s.mem.readN free 8
  if n = 0 ∨ p.imageCap.toNat < n then none
  else
    let a := s.mem.readN (free + 8 + 8 * (n - 1)) 8
    if p.images.contains a && !(s.saved.any fun v => v.image.toNat == a) then some (a, s.mem.writeN free 8 (n - 1)) else none

/-- YIELD. The thread that offers its slot stands behind the instruction with its result when it is saved. One that does so in supervisor mode
goes on, and is saved once it may be (R160, R450; log entry 62). -/
def execYield (a d : Reg) (s : State) : Out :=
  let i := Instr.yield a d
  issue i [a] [d] s fun t u =>
    let v := t.src a
    if v = 0 then
      let rest := match t.yieldFor with
        | none => canIssue s t
        | some l => l.filter fun x => (canIssue s t).contains x
      if rest.isEmpty then done s (u.result d 0) i else wait s { t with yieldFor := some rest } i
    else if v = 1 then
      if !someoneWaits s t || (popImage s (s.partOf t)).isNone then done s (u.result d 0) i
      else if t.sup then done s ({ u with evict := true }.result d 1) i
      else if t.draining then wait s t i
      else .next (s.setThread { (u.result d 1).pass i with run := .saving false })
    else illegal s t i

/-! ### WAITW and WAITT (R161, R162) -/

/-- WAITW (R161). -/
def execWaitw (sc : BitVec 3) (b a d : Reg) (s : State) : Out :=
  let i := Instr.waitw sc b a d
  issue i [a, b] [d] s fun t u =>
    let va := t.src a
    if !aligned va 8 then misaligned s t i va 1
    else match locate s (t.who s) va .read false with
      | (.wait, s') => wait s' t i
      | (.bad tr, s') => scalarTrap s' t i tr
      | (.at l, s') =>
        let w : BitVec 64 := BitVec.ofNat 64 (loadT s' t l 8)
        if w = t.src b then wait s' t i else done s' (u.result d w) i

/-- WAITT (R162). -/
def execWaitt (a d : Reg) (s : State) : Out :=
  let i := Instr.waitt a d
  issue i [a] [d] s fun t u => if s.time.ult (t.src a) then wait s t i else done s (u.result d s.time) i

end
end Sys2Proof.Machine
end

