-- ==== Sys2Proof/Machine/Schedule.lean ====
section
/-! DEFINITION. The scheduler: placing a thread on a slot, pre-empting one and saving it (spec/06_control_threads.md R144, R149, R150,
R169; spec/20_traps_and_context.md R449, R450; spec/09_lattice_and_accumulators.md R248). -/

namespace Sys2Proof.Machine
open Sys2Proof

noncomputable section

/-! ### Placement (R144, R149) -/

/-- The scheduler may place a thread of the partition on the slot. -/
def slotFree (s : State) (p : Partition) (slot : Nat) : Bool :=
  let f := slot / Config.slotsPerFacet
  p.hasFacet f && !(s.facet f).failing && (s.thread? slot).isNone

/-- Threads that run on a facet; one that is being saved does not (R144). -/
def runningOn (s : State) (f : Nat) : Nat := (s.threads.filter fun t => t.facet == f && !t.run.isSaving).length

/-- The facet of the slot has the fewest running threads among those with a free slot, and the slot is the lowest of its kind (R149). -/
def slotChosen (s : State) (p : Partition) (slot : Nat) : Bool :=
  let n := runningOn s (slot / Config.slotsPerFacet)
  slotFree s p slot &&
    ((List.range Config.facets).all fun f =>
      (List.range Config.slotsPerFacet).all fun j =>
        let x := Config.slotsPerFacet * f + j
        !slotFree s p x || (let k := runningOn s f; n < k || (n == k && slot ≤ x)))

/-- A thread that waits for a slot. -/
inductive Waiting where
  | saved (v : SavedThread)
  | fresh (l : Launch)
  deriving DecidableEq, Repr

def Waiting.prio : Waiting → Nat
  | .saved v => v.thread.level.toNat
  | .fresh l => l.prio.toNat

def Waiting.launch : Waiting → Nat
  | .saved v => v.thread.launch
  | .fresh l => l.id

def Waiting.rank : Waiting → Nat
  | .saved v => v.thread.rank
  | .fresh l => l.next

def Waiting.placedOnce : Waiting → Bool
  | .saved _ => true
  | .fresh _ => false

/-- Threads of a partition that wait for a slot; of a launch's threads never placed only the lowest rank comes next. -/
def waiting (s : State) (pn : Nat) (p : Partition) : List Waiting :=
  (s.saved.filter fun v => v.thread.part == pn).map Waiting.saved
    ++ (p.launches.filter fun l => l.next < l.count).map Waiting.fresh

/-- The order of R149: priority, placed once, acceptance, rank. -/
def Waiting.before (p : Partition) (x y : Waiting) : Bool :=
  let ox := p.orderOf x.launch
  let oy := p.orderOf y.launch
  y.prio < x.prio || (x.prio == y.prio && (
    (x.placedOnce && !y.placedOnce) || (x.placedOnce == y.placedOnce && (
      ox < oy || (ox == oy && x.rank < y.rank)))))

def firstWaiting (p : Partition) : List Waiting → Option Waiting
  | [] => none
  | x :: xs =>
    match firstWaiting p xs with
    | some y => if x.before p y then some x else some y
    | none => some x

/-- A thread at its start (R150). -/
def freshThread (p : Partition) (pn slot : Nat) (l : Launch) : Thread :=
  let t : Thread :=
    { slot := slot, part := pn, launch := l.id, rank := l.next, pc := l.entry, det := l.det, pe := l.pe, prioMax := l.prio,
      level := l.prio, aspace := l.aspace }
  (((t.wr 2 (p.uva + BitVec.ofNat 64 (2 ^ p.uwlog.toNat))).wr 3 l.args).wr 4 (BitVec.ofNat 64 l.next)).wr 5 (BitVec.ofNat 64 l.count)

/-- Place a thread for the first time; its unit window reads as zero (R150, R269). -/
def placeFresh (s : State) (pn slot : Nat) (p : Partition) (l : Launch) : State :=
  let m := s.mem.zero (unitBase slot) 65536
  { s with mem := m, threads := freshThread p pn slot l :: s.threads }.setPart pn (p.setLaunch { l with next := l.next + 1 })

/-! ### Restoring (R248, R449) -/

/-- Push an image address back onto the free list of a partition, where it has room (R436, R449). -/
def pushImage (m : Memory) (p : Partition) (a : BitVec 64) : Memory :=
  let free := p.freeList.toNat
  let n := m.readN free 8
  if n < p.imageCap.toNat then (m.writeN (free + 8 + 8 * n) 8 a.toNat).writeN free 8 (n + 1) else m

/-- Insert a waiter by its number (R228, R248). -/
def insertWaiter (w : Waiter) : List Waiter → List Waiter
  | [] => [w]
  | x :: xs => if w.order < x.order then w :: x :: xs else x :: insertWaiter w xs

/-- Bind the handles of a restored thread to free tiles of its facet; none while there are too few. -/
def bindHandles (t : Thread) (free : List Nat) : Option Thread :=
  match t.h0, t.h1, free with
  | none, none, _ => some t
  | some a, none, x :: _ => some { t with h0 := some { a with tile := x } }
  | none, some b, x :: _ => some { t with h1 := some { b with tile := x } }
  | some a, some b, x :: y :: _ => some { t with h0 := some { a with tile := x }, h1 := some { b with tile := y } }
  | _, _, _ => none

/-- A handle of a restored thread is not bound to a tile of the facet yet. -/
def Thread.unbound (t : Thread) : Bool := (t.h0.any fun b => b.tile == 2) || t.h1.any fun b => b.tile == 2

/-- A thread whose handles are not bound yet issues nothing; a halted one stays halted besides (R248, R445). -/
def Thread.awaitTiles (t : Thread) : Thread := if t.unbound && t.run != .halted then { t with run := .rebind } else t

/-- Bind the handles at once, or wait as an AALLOC.wait would, in the order of the save (R248). -/
def rebind (s : State) (t : Thread) (order : Nat) : State :=
  let f := s.facet t.facet
  if t.h0.isNone && t.h1.isNone then s.setThread t
  else match f.waiters, bindHandles t (freeTiles s t.facet) with
    | [], some u => s.setThread u
    | _, _ => (s.setFacet t.facet { f with waiters := insertWaiter ⟨t.slot, order⟩ f.waiters }).setThread t.awaitTiles

/-- The vector-side trap of the oldest entry, which met its fault before the thread was saved, is taken (R449). -/
def takePending (s : State) (t : Thread) : State × Thread :=
  match t.queue.head?.bind fun e => e.fault.map fun tr => (e, tr) with
  | some (e, tr) =>
    let s' := enterTrap (s.setThread t) t tr true t.pc e.pc e.skip
    (s', (s'.thread? t.slot).getD t)
  | none => (s, t)

/-- A nest whose body could not be fetched again: its frame keeps the state, and the fetch fault is raised at its instruction. -/
def bodyless (bs : List (BitVec 8)) : Nest :=
  { frameNest bs with body := List.replicate (frameNestLen bs) (.hint 0) }

/-- A thread that cannot be resumed stops in the halted state with the frame block it has, marked with code 21 and DBL (R449). -/
def haltFrame (s : State) (t : Thread) (bs : List (BitVec 8)) : State × Thread :=
  let c := word64 bs 0
  let m := (s.mem.writeBytes (s.frameBase t) bs).writeN (s.frameBase t) 8 (c / 64 * 64 + 21 + (if bitAt c 14 then 0 else 2 ^ 14))
  let u := { t with run := .halted }
  (({ s with mem := m }.setThread u).haltReport t.slot, u)

/-- Resume a thread that stands on its slot again from a frame block; none while a tile of its code moves (R446, R449). A frame
block or an ASPACE that cannot be resumed from halts it (R359, R449; log entry 24). -/
def resume (s : State) (t : Thread) (bs : List (BitVec 8)) (faults : Bool) : Option (State × Thread) :=
  if !aspaceOk t.aspace || !frameOk bs then some (haltFrame s t bs)
  else match resumeFrame s t bs faults with
    | .ok v s' => some (takePending (s'.setThread v) v)
    | .wait _ => none
    | .bad tr s' =>
      let u := returnFrom t bs (some (bodyless bs)) (frameEntries t bs faults)
      let s'' := enterTrap (s'.setThread u) u tr false u.pc u.pc false
      some (s'', (s''.thread? t.slot).getD u)

/-- A thread's tiles are bound to none of the facet's (R248). -/
def Thread.loose (t : Thread) : Thread :=
  let free (b : BoundTile) : BoundTile := { b with tile := 2 }
  { t with h0 := t.h0.map free, h1 := t.h1.map free }

/-- Place a saved thread again: unit window, registers, frame block and tiles (R269, R449). -/
def placeSaved (s : State) (slot : Nat) (p : Partition) (v : SavedThread) : State :=
  let a := v.image.toNat
  let t := { v.thread with slot := slot }
  let bs := s.mem.readBytes a 0x4000
  let w := s.mem.readBytes (a + 0x1C000) (2 ^ p.uwlog.toNat)
  let m := pushImage ((s.mem.zero (unitBase slot) 65536).writeBytes (unitBase slot) w) p v.image
  let s1 (t : Thread) : State := { s with mem := m, saved := s.saved.filter (· ≠ v), threads := t :: s.threads }
  match readImage s.mem a t with
  | none =>
    let u := t.loose
    let r := haltFrame (s1 u) u bs
    rebind r.1 r.2 v.order
  | some u =>
    if v.thread.run = .halted && aspaceOk u.aspace then
      rebind { s1 u with mem := m.writeBytes ((s1 u).frameBase u) bs } u v.order
    else match resume (s1 u) u bs true with
      | none => s
      | some (s2, r) => rebind s2 r v.order

/-- SLOT_PLACEMENT: the scheduler fills the slot it chooses with the thread that comes first, which fetches nothing that was fetched ahead
on the slot (R144, R149, R387). -/
def execSlotPlacement (part slot : Nat) (s : State) : Out :=
  let p := s.parts.toList.getD part {}
  if s.recovery || !p.valid || !slotChosen s p slot then .next s
  else
    let s' := dropFetched s slot
    match firstWaiting p (waiting s part p) with
    | none => .next s
    | some (.saved v) => .next (placeSaved s' slot p v)
    | some (.fresh l) => .next (placeFresh s' part slot p l)

/-! ### Pre-emption (R169, R449, R450, R454) -/

/-- A pre-emption of the thread is deferred: in supervisor mode unless halted, without a free image, during a drain (R445, R450). -/
def deferred (s : State) (t : Thread) : Bool :=
  (t.sup && t.run != .halted) || t.draining || (popImage s (s.partOf t)).isNone

/-- Threads of pre-empting launches that wait, by priority, with no free slot in the partition (R169). -/
def preemptors (s : State) (pn : Nat) (p : Partition) : List Waiting :=
  if (List.range (Config.facets * Config.slotsPerFacet)).any (slotFree s p) then []
  else (waiting s pn p).filter fun w => (p.launches.find? fun l => l.id == w.launch).any Launch.preempt

/-- `x` is a victim ahead of `y`: lower LEVEL, then later launch, then higher rank (R169). -/
def victimBefore (p : Partition) (x y : Thread) : Bool :=
  let ox := p.orderOf x.launch
  let oy := p.orderOf y.launch
  x.level.toNat < y.level.toNat || (x.level == y.level && (oy < ox || (ox == oy && y.rank < x.rank)))

/-- The thread is the victim that a waiting pre-emptor takes; one is taken for each slot needed (R169). -/
def isVictim (s : State) (t : Thread) : Bool :=
  let p := s.partOf t
  let mine := s.threads.filter fun u => u.part == t.part
  let taken := (mine.filter fun u => u.run.isSaving).length
  let needs := (preemptors s t.part p).filter fun w => t.level.toNat < w.prio
  taken < needs.length && mine.all fun u => u.slot == t.slot || u.run.isSaving || deferred s u || victimBefore p t u

/-- Begin to save a thread: the control thread stops as R443 gives (R449). -/
def beginSave (s : State) (t : Thread) : State :=
  let h := t.run == .halted
  s.setThread { finishAmo t with run := .saving h, pubV := none }

/-- PREEMPTION (R169, R449, R454). -/
def execPreemption (t : Nat) (s : State) : Out :=
  match s.thread? t with
  | none => .next s
  | some w =>
    if w.run.isSaving || deferred s w || !(w.evict || isVictim s w) then .next s else .next (beginSave s w)

/-- What a saved thread keeps beside its image: it starts at its place in its launch, with the tokens and chord results that arrive
from now on (R284, R321), and what the frame block does not hold of its entries. -/
def keepBeside (t : Thread) (halted : Bool) : Thread :=
  { t with run := if halted then .halted else .ready, held := if halted then t.held else t.queue, queue := [],
           evict := false, yieldFor := none, lost := [], tok := Vector.replicate 16 0, chStatus := 0, chFlags := 0 }

/-- The vector side can stop: nothing of the thread runs that must end, and its moves with tokens have pushed them (R449). -/
def saveReady (s : State) (t : Thread) : Bool := canStop s t && !((s.movesOf t).any fun m => m.push.isSome)

/-- The frame block of an image: that of a halted thread as it stands, else what a resumption needs; LOST where a register is saved as
zero (R445, R449, R454). -/
def imageFrame (m : Memory) (s : State) (u : Thread) (a : Nat) (halted lost : Bool) : Memory :=
  if halted then
    let bs := s.mem.readBytes (s.frameBase u) 0x4000
    let c := word64 bs 0
    (m.writeBytes a bs).writeN a 8 (if lost && !bitAt c 15 then c + 2 ^ 15 else c)
  else writeFrame m a u ⟨causeWord { code := 0 } false u.sup false u.nest.isSome false lost, u.pc, u.pc, 0, 0⟩

/-- CONTEXT_SAVE_DONE: the image is written and the slot is freed (R144, R449, R454). -/
def execContextSaveDone (t : Nat) (s : State) : Out :=
  match s.thread? t with
  | none => .next s
  | some w =>
    match w.run with
    | .saving h =>
      if !saveReady s w then .next s
      else match popImage s (s.partOf w) with
        | none => .next s
        | some (a, m) =>
          let st := stopVector { s with mem := m } w
          let fl := flushAll st.1 st.2
          let u := fl.2
          let m := imageFrame (writeImage fl.1 u a) fl.1 u a h (u.lost.any u.isLost)
          let f := fl.1.facet w.facet
          let s' := fl.1.setFacet w.facet { f with waiters := f.waiters.filter fun x => x.slot != t }
          .next { s' with
            mem := m, threads := s'.threads.filter fun x => x.slot != t, nextOp := fl.1.nextOp + 1,
            saved := fl.1.saved ++ [⟨BitVec.ofNat 64 a, fl.1.nextOp, keepBeside u h⟩] }
    | _ => .next s

/-! ### AALLOC waiters (R228, R248) -/

/-- An AALLOC.wait entry that has reached the lattice. -/
def allocEntry (t : Thread) : Option (QEntry × XOps) :=
  t.queue.findSome? fun e => match e.instr with
    | .aallocWait o => if e.running then some (e, o) else none
    | _ => none

/-- AALLOC_WAIT_BIND: the oldest waiter of the facet takes a free tile, or all the tiles its handles need. -/
def execAallocWaitBind (facet : Nat) (s : State) : Out :=
  let f := s.facet facet
  match f.waiters with
  | [] => .next s
  | w :: ws =>
    match s.thread? w.slot with
    | none => .next (s.setFacet facet { f with waiters := ws })
    | some t =>
      let free := freeTiles s facet
      if t.unbound then
        match bindHandles t free with
        | some u => .next ((s.setFacet facet { f with waiters := ws }).setThread (if u.run = .rebind then { u with run := .ready } else u))
        | none => .next s
      else match free, allocEntry t with
        | k :: _, some (e, o) =>
          .next ((chargeLattice (s.setFacet facet { f with waiters := ws }) t 32).setThread
            (((bindTile t o.a.toNat k).upd e.seq fun x => { x with result := some 0 }).finish e.seq))
        | _, none => .next (s.setFacet facet { f with waiters := ws })
        | [], _ => .next s

end
end Sys2Proof.Machine
end

