-- ==== Sys2Proof/Machine/Vers.lean ====
section
/-! DEFINITION. The VERS major (spec/14_policy_versions.md R348 to R353). -/

namespace Sys2Proof.Machine
open Sys2Proof

noncomputable section

/-! ### VPUBL (R349, R350) -/

/-- Version `y` lies 32 768 or more behind version `v`. -/
def farBehind (v y : BitVec 16) : Bool := 32768 ≤ (v - y).toNat

/-- After the step a published slot of the region would be too far behind: one that stays published (R349). -/
def leavesFar (g : Region) (v : BitVec 16) : Bool :=
  (List.range 4).any fun j => g.st j == 1 && g.free != some j && farBehind v (g.ver j)

/-- SST with the state of a slot replaced. -/
def sstWith (sst j v : Nat) : Nat := sst - fld sst (2 * j) 2 * 4 ^ j + v * 4 ^ j

/-- The step of VPUBL on one region: the staging slot is published as `v`, and the lowest free slot becomes staging. -/
def publishRegion (m : Memory) (base r : Nat) (v : BitVec 16) : Memory :=
  let g := readRegion m base r
  let a := regionAddr base r
  match g.staging, g.free with
  | some st, some fr =>
    (((m.writeN (a + 72) 1 (sstWith (sstWith g.sst st 1) fr 2)).writeN (a + 56 + 2 * st) 2 v.toNat).writeN (a + 74) 2 v.toNat)
  | _, _ => m

/-- What VPUBL comes to once its waits are over. -/
inductive Publish where
  | code (r : BitVec 64)
  /-- it blocks, with the version that it takes -/
  | block (v : BitVec 16)
  | step (v : BitVec 16) (regions : List Nat)
  deriving DecidableEq, Repr

/-- The loop of R349 and what follows it, for the version `v`. -/
def publishLoop (s : State) (base mask : Nat) (v : BitVec 16) (waits : Bool) : Publish :=
  let regs := (validRegions s.mem base).filter fun r => bitAt mask r
  if regs.any fun r => (readRegion s.mem base r).free.isNone then (if waits then .block v else .code (-1))
  else if regs.any fun r => leavesFar (readRegion s.mem base r) v then .code (-3)
  else .step v regs

/-- The checks of R349 in order. `at'` is the version given, if any. -/
def publishCheck (s : State) (t : Thread) (mask : Nat) (at' : Option (BitVec 64)) (waits : Bool) : Publish :=
  match s.vtab with
  | none => .code (-4)
  | some b =>
    let base := b.toNat
    let lat := latest s.mem base
    let valid := validRegions s.mem base
    let inMask (r : Nat) : Bool := bitAt mask r
    let v : BitVec 16 := match at' with
      | some x => x.setWidth 16
      | none => lat + 1
    if !bitAt (s.mem.readN (base + 16) 2) t.part then .code (-5)
    else if mask = 0 || ((List.range 64).any fun r => inMask r && !valid.contains r) then .code (-2)
    else if (match at' with
        | some x => x.extractLsb' 16 48 != 0 || !verAfter v lat
        | none => false) then .code (-2)
    else if valid.any fun r => !inMask r && farBehind v (BitVec.ofNat 16 (readRegion s.mem base r).lastpub) then .code (-3)
    else publishLoop s base mask v waits

/-- What VPUBL comes to now: one that was blocked goes on in its loop with the version that it took (R349). -/
def publishNow (s : State) (t : Thread) (mask : Nat) (at' : Option (BitVec 64)) (waits : Bool) : Publish :=
  match t.pubV, s.vtab with
  | some v, some b => publishLoop s b.toNat mask v waits
  | _, _ => publishCheck s t mask at' waits

/-- VPUBL and its forms: earlier entries have committed, the implicit drain, then one atomic step (R349, R406). -/
def vpubl (i : Instr) (srcs : List Reg) (a d : Reg) (at' : Thread → Option (BitVec 64)) (waits : Bool) (s : State) : Out :=
  issue i srcs [d] s fun t u => afterVcp i s t <| withDrain s t i <|
    match publishNow s t (t.src a).toNat (at' t) waits with
    | .code r => done s (u.result d r) i
    | .block v => wait s { t with pubV := some v } i
    | .step v regs =>
      match s.vtab with
      | none => done s (u.result d (-4)) i
      | some b =>
        let m := (regs.foldl (fun m r => publishRegion m b.toNat r v) s.mem).writeN b.toNat 2 v.toNat
        done { s with mem := m } (u.result d (v.setWidth 64)) i

/-- VPUBL (R349). -/
def execVpubl (a d : Reg) (s : State) : Out := vpubl (.vpubl a d) [a] a d (fun _ => none) false s
/-- VPUBL.wait (R349). -/
def execVpublWait (a d : Reg) (s : State) : Out := vpubl (.vpublWait a d) [a] a d (fun _ => none) true s
/-- VPUBL.at (R349). -/
def execVpublAt (b a d : Reg) (s : State) : Out := vpubl (.vpublAt b a d) [a, b] a d (fun t => some (t.src b)) false s
/-- VPUBL.wait.at (R349). -/
def execVpublWaitAt (b a d : Reg) (s : State) : Out := vpubl (.vpublWaitAt b a d) [a, b] a d (fun t => some (t.src b)) true s

/-! ### TOKSW (R351) -/

def outsideGroup : BitVec 64 := 0x8000000000000001
def badMinimum : BitVec 64 := 0x8000000000000002

/-- TOKSW (R351). -/
def execToksw (a d : Reg) (s : State) : Out :=
  let i := Instr.toksw a d
  issue i [a] [d] s fun t u => beforeArrival i s t (barrier i a d s t u true none outsideGroup id)

/-- TOKSW.min: a minimum with a bit above 15 does not arrive (R351). -/
def execTokswMin (b a d : Reg) (s : State) : Out :=
  let i := Instr.tokswMin b a d
  issue i [a, b] [d] s fun t u => beforeArrival i s t <|
    let v := t.src a
    let m := t.src b
    let member := groupIdOk v && ((s.partOf t).group? (v.setWidth 32)).any fun g => g.members.has t.launch t.rank
    if member && m.extractLsb' 16 48 != 0 then done s (u.result d badMinimum) i
    else barrier i a d s t u true (some (m.setWidth 16)) outsideGroup id

/-! ### STTOK (R352) -/

/-- STTOK: a store of 8 bytes stamped with the bound version. -/
def execSttok (b a : Reg) (s : State) : Out :=
  let i := Instr.sttok b a
  issue i [a, b] [] s fun t u =>
    let va := t.src a
    let w := (t.src b).toNat
    if fld w 48 16 ≠ 0 then illegal s t i
    else if !aligned va 8 then misaligned s t i va 2
    else match locate s (t.who s) va .write false with
      | (.wait, s') => wait s' t i
      | (.bad tr, s') => scalarTrap s' t i tr
      | (.at l, s') =>
        match storeT s' u va l 8 ((s'.partOf t).ver.toNat * 2 ^ 48 + w) with
        | .ok (s', u) => done s' u i
        | .error e => scalarTrap s' t i e

/-! ### VPIN and VUNPIN (R353) -/

/-- The slots that a version resolves to, by region. -/
def resolvedSlots (m : Memory) (base : Nat) (v : BitVec 16) : List (Nat × Nat) :=
  (validRegions m base).filterMap fun r => ((readRegion m base r).resolve v).map fun j => (r, j)

/-- Pins that VPIN made on a slot. -/
def vpinCount (s : State) (x : Nat × Nat) : Nat := Cells.get 0 s.vpins (4 * x.1 + x.2)

/-- Change the pins of slots by VPIN, in the table and apart from it. -/
def repin (s : State) (base : Nat) (up : Bool) (xs : List (Nat × Nat)) : State :=
  xs.foldl (fun (s : State) x =>
    let g := readRegion s.mem base x.1
    let n := vpinCount s x
    { s with mem := setPin s.mem base x.1 x.2 (if up then g.pin x.2 + 1 else g.pin x.2 - 1),
             vpins := Cells.set 0 s.vpins (4 * x.1 + x.2) (if up then n + 1 else n - 1) }) s

/-- The version is LATEST or some partition's bound version. -/
def heldVersion (s : State) (base : Nat) (v : BitVec 16) : Bool :=
  latest s.mem base == v || s.parts.toList.any fun p => p.valid && p.bound && p.ver == v

/-- VPIN and VUNPIN. -/
def vpinOp (i : Instr) (a d : Reg) (up : Bool) (s : State) : Out :=
  issue i [a] [d] s fun t u =>
    let w := t.src a
    let v : BitVec 16 := w.setWidth 16
    match s.vtab with
    | none => done s (u.result d 3) i
    | some b =>
      let base := b.toNat
      let xs := resolvedSlots s.mem base v
      if w.extractLsb' 16 48 ≠ 0 then done s (u.result d 3) i
      else if up && !heldVersion s base v then done s (u.result d 1) i
      else if up && (xs.any fun x => 65519 ≤ (readRegion s.mem base x.1).pin x.2) then done s (u.result d 2) i
      else if !up && (xs.isEmpty || xs.any fun x => vpinCount s x == 0) then done s (u.result d 1) i
      else done (repin s base up xs) (u.result d 0) i

/-- VPIN (R353). -/
def execVpin (a d : Reg) (s : State) : Out := vpinOp (.vpin a d) a d true s
/-- VUNPIN (R353). -/
def execVunpin (a d : Reg) (s : State) : Out := vpinOp (.vunpin a d) a d false s

end
end Sys2Proof.Machine
end

