-- ==== Sys2Proof/Machine/Wakes.lean ====
section
/-! DEFINITION. Events that let a blocked thread go on: each executes the blocked instruction again from its start (R443), which
completes where its wait is over (spec/06_control_threads.md R161 to R165; spec/10_stream_blocks_and_queues.md R264, R266;
spec/11_scratchpads_and_vector_memory.md R286; spec/12_banks_and_plural_addressing.md R321; spec/14_policy_versions.md R349, R351;
spec/15_address_translation.md R370; spec/16_atomics_and_synchronisation.md R382, R387; spec/21_power_host_and_management.md R460). -/

namespace Sys2Proof.Machine
open Sys2Proof

noncomputable section

/-- The control pipeline serves slot `t` for one instruction; whose turn it is otherwise does not change. -/
def onSlot (t : Nat) (s : State) (f : State → Out) : Out :=
  match f { s with cur := t } with
  | .next s' => .next { s' with cur := s.cur }
  | r => r

/-- Execute again the instruction that slot `t` is blocked in, where `k` names it. -/
def wake (t : Nat) (k : Instr → Option (State → Out)) (s : State) : Out :=
  match s.thread? t with
  | none => .next s
  | some w =>
    match w.run with
    | .blocked i =>
      match k i with
      | some f => onSlot t s f
      | none => .next s
    | _ => .next s

/-- FENCE_COMPLETE (R382). -/
def execFenceComplete (t : Nat) (s : State) : Out :=
  wake t (fun i => match i with
    | .fence sc => some (execFence sc)
    | _ => none) s

/-- ISYNC_COMPLETE (R387). -/
def execIsyncComplete (t : Nat) (s : State) : Out :=
  wake t (fun i => match i with
    | .isync => some execIsync
    | _ => none) s

/-- TLBINV_COMPLETE (R370). -/
def execTlbinvComplete (t : Nat) (s : State) : Out :=
  wake t (fun i => match i with
    | .tlbinv b a => some (execTlbinv b a)
    | .tlbinvA a => some (execTlbinvA a)
    | _ => none) s

/-- STAGGERED_RELEASE: a participant whose time has come leaves its episode (R460). -/
def execStaggeredRelease (t : Nat) (s : State) : Out :=
  wake t (fun i => match i with
    | .barg a d => some (execBarg a d)
    | .toksw a d => some (execToksw a d)
    | .tokswMin b a d => some (execTokswMin b a d)
    | _ => none) s

/-- WAITW_WAKE: the word is read again with an acquire (R161). -/
def execWaitwWake (t : Nat) (s : State) : Out :=
  wake t (fun i => match i with
    | .waitw sc b a d => some (execWaitw sc b a d)
    | _ => none) s

/-- WAITT_WAKE (R162). -/
def execWaittWake (t : Nat) (s : State) : Out :=
  wake t (fun i => match i with
    | .waitt a d => some (execWaitt a d)
    | _ => none) s

/-- WAITC_WAKE (R286). -/
def execWaitcWake (t : Nat) (s : State) : Out :=
  wake t (fun i => match i with
    | .waitc p a d => some (execWaitc p a d)
    | _ => none) s

/-- CHWAIT_WAKE (R321). -/
def execChwaitWake (t : Nat) (s : State) : Out :=
  wake t (fun i => match i with
    | .chwait p d => some (execChwait p d)
    | _ => none) s

/-- STBAR_COMPLETE (R266). -/
def execStbarComplete (t : Nat) (s : State) : Out :=
  wake t (fun i => match i with
    | .stbar p sb => some (execStbar p sb)
    | _ => none) s

/-- VPUBL_WAIT_RESUME (R349). -/
def execVpublWaitResume (t : Nat) (s : State) : Out :=
  wake t (fun i => match i with
    | .vpublWait a d => some (execVpublWait a d)
    | .vpublWaitAt b a d => some (execVpublWaitAt b a d)
    | _ => none) s

/-- TOKSW_MIN_RESUME: LATEST has reached the minimum, and the blocked switch proceeds (R351). -/
def execTokswMinResume (t : Nat) (s : State) : Out :=
  wake t (fun i => match i with
    | .toksw a d => some (execToksw a d)
    | .tokswMin b a d => some (execTokswMin b a d)
    | _ => none) s

/-- The instruction is a queued one. -/
def queued (i : Instr) : Bool :=
  match qForm (expand 0 i) with
  | .no => false
  | _ => true

/-- VECTOR_QUEUE_PUSH_RESUME: the stalled push goes on (R163). -/
def execVectorQueuePushResume (t : Nat) (s : State) : Out :=
  wake t (fun i => if queued i then some (pushQ i) else none) s

/-- QUEUE_REGISTER_RESUME: a thread blocked at a queue register issues its instruction again in its next turn (R264, R265). -/
def execQueueRegisterResume (t q : Nat) (s : State) : Out :=
  match s.thread? t with
  | none => .next s
  | some w =>
    match w.run with
    | .blocked _ =>
      if w.amo.isNone && !w.draining && (w.qAt q).general.isSome then .next (s.setThread { w with run := .ready }) else .next s
    | _ => .next s

end
end Sys2Proof.Machine
end

