-- ==== Sys2Proof/Machine/EngineEvents.lean ====
section
/-! DEFINITION. The turns of the vector side and of the engines: starts and commits, stream accesses, chords, moves, drains, tiles,
versions and the lattice's idleness (spec/06_control_threads.md R164; spec/09_lattice_and_accumulators.md R246;
spec/10_stream_blocks_and_queues.md R258, R259; spec/11_scratchpads_and_vector_memory.md R283;
spec/12_banks_and_plural_addressing.md R317 to R323; spec/13_tile_map_and_pending_logs.md R328, R332, R335;
spec/14_policy_versions.md R345; spec/18_determinism.md R406; spec/21_power_host_and_management.md R456). -/

namespace Sys2Proof.Machine
open Sys2Proof

noncomputable section

/-- Do something with the thread of a slot; nothing where none is placed. -/
def withSlot (t : Nat) (s : State) (f : Thread → State) : Out :=
  match s.thread? t with
  | some w => .next (f w)
  | none => .next s

/-! ### Starts and commits -/

/-- ENTRY_START (R164). -/
def execEntryStart (t : Nat) (s : State) : Out := withSlot t s fun w => startStep s w

/-- ENTRY_COMMIT (R164). -/
def execEntryCommit (t : Nat) (s : State) : Out := withSlot t s fun w => commitStep s w

/-! ### Stream blocks -/

/-- No strip is read past a fence or a VRECONF that has not committed (R181, R383). -/
def holdsStrips (e : QEntry) : Bool :=
  match qForm e.instr with
  | .x _ .fence => true
  | .v _ .reconf => true
  | _ => false

/-- The strip of block `b` is read for entry `x`, or is not to be read any more. -/
def stripDone (x : QEntry) (b : StreamBlk) : Bool :=
  x.vl.toNat ≤ x.vstart.toNat || match x.strips.find? fun y => y.reg == b.reg with
    | some y => y.bad.isSome || x.vl.toNat ≤ y.first + y.vals.length
    | none => false

/-- Entries before the strip's own have their strips of the block, whose accesses come in the order of its positions (R258, R391). -/
def stripFree (t : Thread) (before : List QEntry) (b : StreamBlk) : Bool :=
  before.all fun x =>
    let same (y : StreamBlk) : Bool := y.reg == b.reg && y.desc == b.desc
    match x.instr with
    | .vreplay _ => x.done || !x.blks.any same
    | _ => x.started || !((streamSrcs x (x.info t.splitV)).any fun y => same y.1) || stripDone x b

/-- Read at most `n` elements of each strip of an entry ahead of its start; a failed translation is kept and raises nothing (R258, R260,
R365). -/
def readAhead (s : State) (t : Thread) (before : List QEntry) (e : QEntry) (n : Nat) : State × QEntry :=
  ((streamSrcs e (e.info t.splitV)).filter fun x => stripFree t before x.1).foldl (fun (a : State × QEntry) x =>
    let r := stripMore a.1 t a.2 x.1 x.2.2 n a.2.pool
    (r.st, { a.2 with strips := r.keep a.2 x.1 :: a.2.strips.filter fun y => y.reg != x.1.reg })) (s, e)

/-- The A stream reads ahead for the entry at place `k` of the queue, at most `n` elements of each strip: once its token is popped, where it waits
for one (R291). -/
def stripUpTo (s : State) (t : Thread) (k n : Nat) : State :=
  match t.queue[k]? with
  | none => s
  | some e =>
    if e.started || e.live || !t.vectorRuns || !(e.popped || (qForm e.instr).waits.isNone) || ((t.queue.take (k + 1)).any holdsStrips) then s
    else
      let r := readAhead s t (t.queue.take k) e n
      r.1.setThread (t.upd e.seq fun _ => r.2)

/-- STREAM_STRIP_READ: the A stream reads ahead for the entry at place `n` of the queue (R258). -/
def execStreamStripRead (t n : Nat) (s : State) : Out := withSlot t s fun w => stripUpTo s w n 8192

/-- The `j`-th store that a thread holds or owes on a stream is performed (R391); with the last that write streams owe for an entry its tokens are
pushed (R290). -/
def performTaken (s : State) (w : Thread) (side : Side) (j : Nat) : State :=
  match w.takeStore side j with
  | some (x, u) => { s with mem := s.mem.writeBytes x.1 x.2 }.setThread u
  | none => s

/-- WRITE_STREAM_STORE: the A stream performs the oldest store it owes (R259, R290). -/
def execWriteStreamStore (t : Nat) (s : State) : Out := withSlot t s fun w => performTaken s w .a 0

/-- The A stream translates ahead, for no entry yet, the element of a bound read block at `k` positions after POS; a failure raises nothing
(R365). -/
def streamAhead (s : State) (t : Thread) (blk : BitVec 3) (k : Nat) : State :=
  match t.streams.toList.getD blk.toNat none with
  | some b =>
    if b.writes || b.len ≤ b.pos.toNat + k || !t.vectorRuns then s
    else (locate s (t.who s) (b.desc.addr (b.pos.toNat + k)) .read false).2
  | none => s

/-! ### Chords and moves -/

/-- The oldest execution with a command to place on a bank, and that command. -/
def nextCmd (s : State) (bank : Nat) : Option (ChrunOp × ChordCmd) :=
  s.chruns.findSome? fun o => (o.unplaced.find? fun c => c.bank == bank).map fun c => (o, c)

/-- A CHRUN whose commands are all placed is complete (R319). -/
def chrunPlaced (s : State) (o : ChrunOp) : State :=
  match s.threads.find? fun t => t.part == o.part && t.launch == o.launch && t.rank == o.rank with
  | none => s
  | some t => s.setThread (t.upd o.seq fun e =>
      if e.running && e.fault.isNone && (match e.instr with
        | .chrun _ => true
        | _ => false) then { e with done := true } else e)

/-- CHORD_COMMAND_PLACE (R319). -/
def execChordCommandPlace (bank : Nat) (s : State) : Out :=
  if 4 ≤ (s.chord bank).queue.length then .next s
  else match nextCmd s bank with
    | none => .next s
    | some (o, c) =>
      let o' := { o with unplaced := o.unplaced.filter (fun x => x != c), top := max o.top (c.idx + 1) }
      let s := placeCmd { s with chruns := s.chruns.map fun (x : ChrunOp) => if x.id = o.id then o' else x } c
      .next (if o'.unplaced.isEmpty then chrunPlaced s o' else s)

/-- CHORD_RUN_START: the next command begins when the run before has ended (R319). -/
def execChordRunStart (bank : Nat) (s : State) : Out :=
  let k := s.chord bank
  match k.running, k.queue with
  | none, c :: cs => .next (s.setChord { k with running := some c, part := none, queue := cs })
  | _, _ => .next s

/-- The run of a chord goes on by at most `n` positions; at its end it is noted (R316 to R321). -/
def chordStep (s : State) (bank n : Nat) : State :=
  let k := s.chord bank
  match k.running with
  | some c =>
    match chordPerform s c k.part n with
    | (m, .ok p) => { s with mem := m }.setChord { k with part := some p }
    | (m, .error r) => noteRun ({ s with mem := m }.setChord { k with running := none, part := none }) c r.1 r.2
  | none => s

/-- CHORD_RUN_END: the run goes on to its end, and is noted. With no run under way, completion objects that waited for a tile are written
(R316 to R321). -/
def execChordRunEnd (bank : Nat) (s : State) : Out :=
  match (s.chord bank).running with
  | some _ => .next (chordStep s bank (2 ^ 96))
  | none => .next ((s.chruns.filter fun o => o.ended == o.total).foldl endChrun s)

/-- At most `n` positions of a move's present turn. -/
def moveStepUpTo (s : State) (id n : Nat) : State :=
  match s.moves.find? fun m => m.id == id with
  | some m => runMove s m n
  | none => s

/-- TMOV_COMPLETE: the rest of the present turn of the move, which ends it where no position is left (R282 to R284). -/
def execTmovComplete (id : Nat) (s : State) : Out := .next (moveStepUpTo s id turnUnits)

/-- LMAX_EXPIRY: the bank serves ordinary traffic between two commands of a run; no result depends on where a run pauses (R323). -/
def execLmaxExpiry (_bank : Nat) (s : State) : Out := .next s

/-! ### Drains -/

/-- A running VFENCE.D, which owns the drain under way. -/
def drainFence (t : Thread) : Option QEntry :=
  t.queue.find? fun e => e.running && (match e.instr with
    | .vfenceD _ => true
    | _ => false)

/-- COMBINE_DRAIN: the buffer is written to its homes once the drains before it are performed (R406). Combined bytes of a tile that has gone out
force its fetch, and are performed on the slot; where no slot is free the log before them is applied (R338, R407; log entry 92). -/
def execCombineDrain (t : Nat) (s : State) : Out :=
  withSlot t s fun w =>
    match w.draining, s.launchOf w with
    | true, some l =>
      let p := s.partOf w
      if !drainReady l w.drainNo w.rank then s
      else if let some (win, tw, k) := p.combOut s.mem w.comb then
        if (p.transitOf win k).isSome then s else (startFetch s w.part win tw k).getD (foldLog s w.part win tw k)
      else
        let u := { w with comb := [], combVia := [], draining := false }
        let u := match drainFence w with
          | some e => u.finish e.seq
          | none => { u with drainedAt := u.pc :: u.drainedAt }
        let s : State := { s with mem := drainComb s.mem w.comb }
        (s.setPart w.part ((s.partOf w).setLaunch (l.noteDrain w.rank w.drainNo))).setThread u
    | _, _ => s

/-! ### Tiles -/

/-- A window of a partition. -/
def Partition.window (p : Partition) (win : Nat) : Option TiledWin := (p.windows.find? fun w => w.1 == win).map Prod.snd

/-- TILE_LOG_COMPACTION (R332, R333). -/
def execTileLogCompaction (part win tile : Nat) (s : State) : Out :=
  let p := s.parts.toList.getD part {}
  match p.window win with
  | some w => if p.compacting.contains (win, tile) then .next (compactTile s part win w tile) else .next s
  | none => .next s

/-- TILE_ARRIVAL (R328). -/
def execTileArrival (part win tile : Nat) (s : State) : Out :=
  let p := s.parts.toList.getD part {}
  match p.window win, p.transitOf win tile with
  | some w, some t => if t.arriving then .next (finishFetch s part w t) else .next s
  | _, _ => .next s

/-- A store is owed to bytes of a range, or held. -/
def owedIn (s : State) (a n : Nat) : Bool :=
  let inside (x : Nat × List (BitVec 8)) : Bool := a ≤ x.1 && x.1 < a + n
  s.threads.any fun t => t.owedStores.any inside || t.cbuf.any inside || t.vbuf.any fun v => inside (v.key, v.bytes)

/-- TILE_LEAVE: once the accesses performed on the slot are complete, it is copied to the backing (R335). -/
def execTileLeave (part win tile : Nat) (s : State) : Out :=
  let p := s.parts.toList.getD part {}
  match p.window win, p.transitOf win tile with
  | some w, some t => if t.arriving || owedIn s t.slot.toNat tileBytes then .next s else .next (finishLeave s part w t)
  | _, _ => .next s

/-! ### Versions -/

/-- An entry accesses memory by itself, or may by a stream block. -/
def QEntry.accesses (t : Thread) (e : QEntry) : Bool :=
  !t.blocks.isEmpty || match qForm e.instr with
    | .m _ k => !(k == .fill || k == .chrun || k == .send || k == .recv)
    | .x _ k => k == .image || k == .trmem || k == .tmov
    | _ => false

/-- An entry of the thread carries a version tag, or one with an access that a later VREPLAY can run again. -/
def tagged (v : BitVec 16) (t : Thread) : Bool :=
  ((t.queue ++ t.held).any fun e => e.ver == v) || t.chain.any fun e => e.ver == v && e.accesses t

/-- An access tagged with the version may still be performed (R345). -/
def versionInUse (s : State) (part : Nat) (v : BitVec 16) : Bool :=
  ((s.threads ++ s.saved.map SavedThread.thread).any fun t => t.part == part && tagged v t)
    || s.moves.any fun m => m.part == part && m.ver == v

/-- VERSION_PIN_RELEASE: the pins of the `n`-th old binding leave (R343, R345). -/
def execVersionPinRelease (part n : Nat) (s : State) : Out :=
  let p := s.parts.toList.getD part {}
  match s.vtab, p.oldVers[n]? with
  | some b, some v =>
    let v : BitVec 16 := BitVec.ofNat 16 v
    if versionInUse s part v then .next s
    else .next ({ s with mem := pinAll s.mem b.toNat v false }.setPart part { p with oldVers := p.oldVers.eraseIdx n })
  | _, _ => .next s

/-! ### The lattice's rate -/

/-- LATTICE_IDLE_TIMEOUT: the rate falls once no lattice has performed an array cycle for 1 µs, unless RAMP is 0 (R456). -/
def execLatticeIdleTimeout (part : Nat) (s : State) : Out := .next (settlePart s part)

end
end Sys2Proof.Machine
end

