-- ==== Sys2Proof/Machine/FabricEvents.lean ====
section
/-! DEFINITION. The fabric's turns: chunks, the confirmation of collectives, messages, credits and timeouts
(spec/19_fabric_collectives_and_time.md R418 to R430). -/

namespace Sys2Proof.Machine
open Sys2Proof

noncomputable section

/-! ### Collectives -/

/-- A running VCOLL of a thread. -/
def runningColl (t : Thread) : Option (QEntry × KOps) :=
  t.queue.findSome? fun e => match e.instr with
    | .vcoll o => if e.running && e.fault.isNone then some (e, o) else none
    | _ => none

/-- A thread's running collective: its group and path, SEQ, rank, count and signature. -/
structure CollAt where
  e : QEntry
  o : KOps
  key : CollKey
  seq : BitVec 32
  rank : Nat
  count : Nat
  cs : BitVec 32
  deriving DecidableEq, Repr

def collAt (t : Thread) : Option CollAt :=
  (runningColl t).map fun x =>
    { e := x.1, o := x.2, key := collKey t.part x.1.image, seq := grpSeq x.1.image, rank := (grpRank x.1.image).toNat,
      count := (grpCount x.1.image).toNat, cs := collSig x.1 x.2 }

/-- The plan's member of a rank is on another package (R418, R419). -/
def memberElsewhere (s : State) (k : CollKey) (r : Nat) : Bool :=
  match planOf s k.part k.plan with
  | .loaded p => (p.members[r]?).any fun m => m != s.pkgid
  | _ => false

/-- Arrivals that show the strip of a member elsewhere: its first chunk, with the signature, and where it has more than one the others, which show
nothing of themselves (log entry 87). -/
def arrivals : CollData → Nat
  | .raw l => if l.length ≤ 512 then 1 else 2
  | .sums l => if l.length ≤ 42 then 1 else 2

/-- COLLECTIVE_CHUNK_ARRIVAL: chunks of members on other packages arrive once, and stay in their slots until they are used (R426). -/
def execCollectiveChunkArrival (c : CollChunk) (s : State) : Out :=
  let old (x : Contribution) : Bool := x.chunk.key == c.key && x.chunk.seq == c.seq && x.chunk.ranks.any c.ranks.contains
  if c.ranks.isEmpty || !(c.ranks.all (memberElsewhere s c.key)) then .next s
  else if s.contribs.any old then
    .next { s with contribs := s.contribs.map fun (x : Contribution) => if x.chunk = c ∧ x.got < x.total then { x with got := x.got + 1 } else x }
  else .next { s with contribs := s.contribs ++ [{ chunk := c, taken := reachedBy s c, total := arrivals c.data }] }

/-- The member here that runs the collective with a rank. -/
def memberRunning (s : State) (k : CollKey) (seq : BitVec 32) (rank : Nat) : Option CollAt :=
  (s.threads.filterMap collAt).find? fun c => c.key == k && c.seq == seq && c.rank == rank

/-- What a member's checks come to: a match once every chunk has arrived, a mismatch as soon as one differs (R426). -/
def checksOf (s : State) (c : CollAt) : Option Bool :=
  if !collMatches s c.key c.rank c.seq c.cs then some false
  else if collComplete s c.key c.rank c.count c.seq then some true
  else none

/-- The count of a collective's members, as some member here knows it. -/
def countHere (s : State) (k : CollKey) (seq : BitVec 32) (known : Nat) : Nat :=
  match (s.threads.filterMap collAt).find? fun c => c.key == k && c.seq == seq with
  | some c => c.count
  | none => known

/-- The apex of a collective, started by its first report. -/
def apexOf (s : State) (k : CollKey) (seq : BitVec 32) : Apex :=
  (s.apexes.find? fun a => a.key == k && a.seq == seq).getD { key := k, seq := seq, count := 0 }

/-- Write back an apex; one whose decision has reached every member here is done. -/
def putApex (s : State) (a : Apex) : State :=
  let rest := s.apexes.filter fun x => !(x.key == a.key && x.seq == a.seq)
  let all := (List.range a.count).all fun r => a.reached.contains r || !memberHere s a.key.part a.key.plan r
  { s with apexes := if a.decision.isSome && all then rest else a :: rest }

/-- The apex decides: abort at the first mismatch, go when every member has matched (R426). -/
def Apex.decide (a : Apex) : Apex :=
  if a.decision.isSome then a
  else if a.reports.any fun r => !r.2 then { a with decision := some false }
  else if 0 < a.count && (List.range a.count).all fun r => a.reports.any fun x => x.1 == r then { a with decision := some true }
  else a

/-- CONFIRMATION_REPORT_ARRIVAL: a member's report reaches the apex; a member here reports what its checks came to (R426). -/
def execConfirmationReportArrival (r : ConfirmReport) (s : State) : Out :=
  let a := apexOf s r.key r.seq
  let genuine := match memberRunning s r.key r.seq r.rank with
    | some c => checksOf s c == some r.matched
    | none => memberElsewhere s r.key r.rank
  if !genuine || a.reports.any fun x => x.1 == r.rank then .next s
  else .next (putApex s
    ({ a with reports := a.reports ++ [(r.rank, r.matched)], count := countHere s r.key r.seq a.count } : Apex).decide)

/-- A member of the collective may have found a mismatch, as far as this package can know: some signature differs from this member's, or that of a
member elsewhere is not known here yet (R426; log entry 31). -/
def mayMismatch (s : State) (c : CollAt) : Bool :=
  let seen := collArrived s c.key c.rank c.seq
  (seen.any fun x => x.cs != c.cs) || (List.range c.count).any fun r =>
    ((memberRunning s c.key c.seq r).any fun m => m.cs != c.cs)
      || (memberElsewhere s c.key r && !(seen.any fun x => x.ranks.contains r))

/-- A decision that the apex of a loaded plan may send from another package: it has a member there; go only when every member here has
reported a match, and abort only where some member may have found a mismatch (R426; log entry 31). -/
def remoteDecides (s : State) (c : CollAt) (d : Bool) : Bool :=
  ((List.range c.count).any fun r => memberElsewhere s c.key r)
    && if d then (List.range c.count).all fun r => memberElsewhere s c.key r
        || ((memberRunning s c.key c.seq r).any fun m => checksOf s m == some true)
      else mayMismatch s c

/-- The apex has sent a decision to a member (R426). -/
def decided (s : State) (c : CollAt) (d : Bool) : Bool :=
  let a := apexOf s c.key c.seq
  !a.reached.contains c.rank && (match a.decision with
    | some x => x == d
    | none => remoteDecides s c d)

/-- The member's own chunks are still being sent. -/
def stillSends (s : State) (t : Thread) (c : CollAt) : Bool := s.sends.any fun x => x.slot == t.slot && x.seq == c.e.seq

/-- Note that decision `d` has reached a member, and that the member has used the chunks. -/
def reach (s : State) (c : CollAt) (d : Bool) : State :=
  let s := collTake s c.key c.rank c.count c.seq
  let a := apexOf s c.key c.seq
  putApex s { a with reached := c.rank :: a.reached, count := c.count, decision := some d }

/-- The chunks a member combines: its own and those of every other member. -/
def collChunks (s : State) (c : CollAt) : List CollChunk :=
  ((s.contribs.filter fun x => x.chunk.key == c.key && x.chunk.seq == c.seq && x.chunk.ranks == [c.rank]).map Contribution.chunk)
    ++ collArrived s c.key c.rank c.seq

/-- COLLECTIVE_GO: vD is written, the gathered flags are set, and the VCOLL may commit (R423, R427). -/
def execCollectiveGo (t : Nat) (s : State) : Out :=
  withSlot t s fun w =>
    match collAt w with
    | none => s
    | some c =>
      if checksOf s c != some true || !decided s c true || stillSends s w c then s
      else
        let r := collResult (collChunks s c) c.o c.count c.rank c.e.vl.toNat
        let wr := lateCheck s w c.e
        if wr.waits then wr.st else
        let s := reach wr.st c true
        if r.2.2 then s.setThread (w.failEntry s c.e { code := 12 })
        else
          lateDone wr s w (if c.e.vl = 0 then w else (collWrite w c.e c.o r.1).raise r.2.1) c.e

/-- What a member's instruction has still to send is given up (R426, R428). -/
def stopSending (s : State) (w : Thread) (e : QEntry) : State :=
  { s with sends := s.sends.filter fun x => !(x.slot == w.slot && x.launch == w.launch && x.rank == w.rank && x.seq == e.seq) }

/-- COLLECTIVE_ABORT: the member raises COLL_MISMATCH, and ERET will not replay its VCOLL (R426). -/
def execCollectiveAbort (t : Nat) (s : State) : Out :=
  withSlot t s fun w =>
    match collAt w with
    | none => s
    | some c =>
      if !decided s c false then s
      else (stopSending (reach s c false) w c.e).setThread (w.failEntry s c.e { code := 18 })

/-! ### Messages -/

/-- A running VRECV that takes a message. -/
def runningRecv (t : Thread) (m : Message) : Option (QEntry × MOps) :=
  t.queue.findSome? fun e => match e.instr with
    | .vrecv o => if e.running && e.fault.isNone && takes t.part e.image m then some (e, o) else none
    | _ => none

/-- Wake a VRECV that waits for a message: it takes what its slots hold (R430). -/
def wakeRecv (s : State) (m : Message) : State :=
  match s.threads.findSome? fun t => (runningRecv t m).map fun x => (t, x) with
  | none => s
  | some (t, e, o) =>
    let wr := lateCheck s t e
    if wr.waits then wr.st else
    match effVrecv wr.st t e o with
    | .done s u => lateDone wr s t u e
    | .started s u => s.setThread u
    | .fault s u _ tr => s.setThread (u.failEntry s e tr)
    | .hold s u _ => s.setThread u

/-- Chunks of a message: F names the element size (R430). -/
def messageChunks (m : Message) : Nat := chunkCount (m.vl.toNat * (MFmt.ofCode m.f.toNat).bytes)

/-- MESSAGE_ARRIVAL: a chunk of a message from another package arrives in the receiver's slots; a VRECV that waits is woken (R430). -/
def execMessageArrival (m : Message) (s : State) : Out :=
  let full := s.inbox.any fun b => b.msg = m ∧ b.arrived = b.total
  if memberElsewhere s m.key m.src.toNat && !full then .next (wakeRecv (putChunk s m (messageChunks m)) m) else .next (wakeRecv s m)

/-- The last chunk has gone: a VSEND is complete; of a collective nothing is left of the credits for chunks to other packages. -/
def sendDone (s : State) (x : Send) : State :=
  let s := { s with sends := s.sends.filter fun y => y.order != x.order }
  match x.load with
  | .coll c => { s with fstreams := s.fstreams.filter fun f =>
      !(f.key == c.key && c.ranks.contains f.src.toNat && f.coll == some c.seq && !memberHere s c.key.part c.key.plan f.dst.toNat) }
  | .msg _ =>
    match s.threads.find? fun t => t.slot == x.slot && t.launch == x.launch && t.rank == x.rank with
    | some t => s.setThread (t.finish x.seq)
    | none => s

/-- A chunk leaves: it takes a credit, and arrives at once on this package (R420, R426, R430). -/
def chunkOut (s : State) (x : Send) : State :=
  match x.load with
  | .coll c =>
    let f := collStream s c (x.toRank c)
    let s := s.putStream { f with spent := f.spent + 1 }
    { s with contribs := s.contribs.map fun (y : Contribution) => if y.same c then { y with got := y.got + 1 } else y }
  | .msg m =>
    let f := streamFor s m
    let s := s.putStream { f with spent := f.spent + 1 }
    if x.here then putChunk s m x.total else s

/-- ENDPOINT_CHUNK_SEND: the endpoint of a facet sends the chunk that comes first; it takes a credit (R420, R421, R430). -/
def execEndpointChunkSend (facet : Nat) (s : State) : Out :=
  match nextSend s facet with
  | none => .next s
  | some x =>
    let s := chunkOut s x
    let x' := { x with sent := x.sent + 1 }
    .next (if x'.sent = x'.total then sendDone s x'
      else { s with sends := s.sends.map fun (y : Send) => if y.order = x.order then x' else y })

/-- Notices come from a receiver on another package, and from a member here that runs the collective whose chunks it uses (R420). -/
def FStream.frees (s : State) (x : FStream) : Bool :=
  memberElsewhere s x.key x.dst.toNat || x.coll.any fun q => runsColl s x.key q x.dst.toNat

/-- SLOT_FREE_NOTICE: a notice on its way to a sender arrives and returns a credit; or one comes from a receiver that has used a chunk (R420). -/
def execSlotFreeNotice (h : Nat) (s : State) : Out :=
  match s.fstreams[h]? with
  | none => .next s
  | some x =>
    if 0 < x.notices then .next (s.putStream { x with notices := x.notices - 1, spent := x.spent - 1 })
    else if x.frees s then .next (s.putStream { x with spent := x.spent - 1 })
    else .next s

/-! ### Errors and links -/

/-- A running fabric instruction with its plan's handle. -/
def runningFabric (t : Thread) : Option (QEntry × BitVec 32) :=
  t.queue.findSome? fun e =>
    if e.running && e.fault.isNone then
      match e.instr with
      | .vcoll _ => some (e, grpPlan e.image)
      | .vsend _ => some (e, fsPlan e.image)
      | .vrecv _ => some (e, fsPlan e.image)
      | _ => none
    else none

/-- The next step of a running fabric instruction is there to be made: a chunk of it holds its credit, its message is in, or the apex here has
decided (R420, R426, R430). -/
def stepReady (s : State) (t : Thread) (e : QEntry) : Bool :=
  match e.instr with
  | .vsend _ => s.sends.any fun x => x.slot == t.slot && x.seq == e.seq && hasCredit s x
  | .vrecv _ => s.inbox.any fun b => takes t.part e.image b.msg && (b.arrived == b.total || 0 < b.held)
  | .vcoll _ => (collAt t).any fun c => let a := apexOf s c.key c.seq; a.decision.isSome && !a.reached.contains c.rank
  | _ => false

/-- FABRIC_ERROR_TIMEOUT: ABTNS has passed since the start, and nothing is there for the instruction (R428, R430); `port` is the link named,
0xFF where none is (R487). -/
def execFabricErrorTimeout (t : Nat) (port : BitVec 8) (s : State) : Out :=
  withSlot t s fun w =>
    match runningFabric w with
    | none => s
    | some (e, h) =>
      if s.time.toNat - e.began.toNat < (planOf s w.part h).abtns || stepReady s w e then s
      else
        let s := stopSending s w e
        let named := h != 0 && port.toNat < 16
        (if named then s.report (.linkFailing port) else s).setThread
          (w.failEntry s e { code := 19, detail := if named then port.setWidth 64 else 0xFF })

/-- LINK_FLIT_RETRY: the link layer sends a damaged flit again until it is delivered (R428); nothing else is seen of it. -/
def execLinkFlitRetry (_port : Nat) (s : State) : Out := .next s

/-- LINK_RETRAIN: it is reported, and loaded plans keep their figures (R418). -/
def execLinkRetrain (port : BitVec 4) (s : State) : Out := .next (s.report (.retrained port))

end
end Sys2Proof.Machine
end

