-- ==== Sys2Proof/Machine/DeviceEvents.lean ====
section
/-! DEFINITION. What comes from outside the cores: detected errors, the host's accesses, power-on, the HDM decoder, expanders, links
and PTP (spec/15_address_translation.md R356; spec/19_fabric_collectives_and_time.md R432, R433;
spec/20_traps_and_context.md R452 to R454; spec/21_power_host_and_management.md R461, R466 to R468). -/

namespace Sys2Proof.Machine
open Sys2Proof

noncomputable section

/-! ### Errors (R452 to R454) -/

/-- The entry stops with a fault at the element where it stands. -/
def faultEntry (s : State) (t : Thread) (e : QEntry) (tr : Trap) : State := s.setThread ((giveBackInner t e).failEntry s e tr)

/-- An error of element or index `k` of the entry in hand: what lies below is performed, below the element group with `group`, and the
entry stops with the fault (R274, R452, R453). None where the entry does not come to that element, or stands inside an element group of which a part
is performed: what is left of the group meets no error. -/
def entryError (s : State) (t : Thread) (k : Nat) (group : Bool) (tr : Trap) : Option State :=
  match nextEntry s t with
  | none => none
  | some e =>
    let c := e.inner t
    let q := qForm c.instr
    let n := groupLen q (c.info t.splitV)
    let g := if group then k / n * n else roundLimit q k
    if insideGroup t e then none
    else if q.whole || g ≤ c.vstart.toNat then (if c.vstart.toNat ≤ k then some (faultEntry s t e tr) else none)
    else
      let s' := startUpTo s t (some (g - c.vstart.toNat))
      match s'.thread? t.slot with
      | none => none
      | some u =>
        match u.queue.find? fun x => x.seq == e.seq with
        | some x => if x.live && (x.inner u).vstart.toNat == g && u.replay == t.replay then some (faultEntry s' u x tr) else none
        | none => none

/-- An error that the control thread's instruction meets. -/
def controlError (s : State) (t : Thread) (tr : Trap) : Option State :=
  if !(t.active? && t.amo.isNone && canStop s t) then none
  else match raiseAt s t tr t.pc t.pc (.next s) with
    | .next s' => some s'
    | _ => none

def errorAt (s : State) (t : Thread) (site : ErrSite) (group : Bool) (tr : Trap) : Option State :=
  match site with
  | .control => controlError s t tr
  | .entry k => entryError s t k group tr
  | .move _ => none

/-- An error that a tile move meets at its present position ends it there with a cause: 6 for a page-table read, and 1 for the position's own
access, for which R282 has no code (R282, R363; log entry 109). -/
def moveError (s : State) (id cause : Nat) : State :=
  match s.moves.find? fun m => m.id == id && m.fin.isNone && m.pos < m.desc.len with
  | some m => endMove s m (moveWord m m.pos cause 2)
  | none => s

/-- Mark a facet failing: its other threads are to be saved, nothing is placed on it, and a replacement is requested; the registers that
could not be corrected are noted, and read as zero from here on (R454; log entry 108). -/
def markFailing (s : State) (w : Thread) (lost : List (Nat × ErrReg)) : State :=
  let f := s.facet w.facet
  let s := s.setFacet w.facet { f with failing := true }
  let s : State := { s with threads := s.threads.map fun (u : Thread) =>
    if u.facet = w.facet then
      let regs := (lost.filter fun x => x.1 == u.slot).map Prod.snd
      { regs.foldl Thread.zeroReg u with evict := u.evict || u.slot != w.slot, lost := regs ++ u.lost }
    else u }
  (s.report (.replacement w.facet)).event 2 w.facet

/-- STORAGE_ERROR_DETECTED (R363, R452 to R454). Nothing comes about where the access in question is not made. -/
def execStorageErrorDetected (k : StorageFault) (s : State) : Out :=
  match k with
  | .soft f =>
    if f < Config.facets then
      let v := s.facet f
      .next ((s.setFacet f { v with soft := v.soft + 1 }).report (.softError f))
    else .next s
  | .tile t h i j =>
    withSlot t s fun w =>
      match w.hnd h with
      | some b => s.setThread (w.setHnd h (some (b.put i.toNat j.toNat { b.at i.toNat j.toNat with poison := true })))
      | none => s
  | .memory _ (.move id) _ _ => .next (moveError s id 1)
  | .walk _ (.move id) _ _ => .next (moveError s id 6)
  | .memory t site addr acc =>
    withSlot t s fun w => (errorAt s w site true { code := 20, addr := addr, acc := acc.toNat, detail := 0x101 }).getD s
  | .walk t site addr acc => withSlot t s fun w => (errorAt s w site false { code := 7, addr := addr, acc := acc.toNat }).getD s
  | .part t site code lost =>
    withSlot t s fun w =>
      if code.toNat < 2 ∨ 10 < code.toNat then s
      else match errorAt s w (if code = 10 then .control else site) true { code := 20, detail := code.setWidth 64 } with
        | some s' => markFailing s' w lost
        | none => s

/-! ### The host link (R356, R461) -/

/-- Every byte of a range lies in the HDM window and reaches something. -/
def hostReaches (s : State) (a n : Nat) : Bool := (List.range n).all fun i => (winOffset s (a + i)).isSome && reaches s (a + i)

/-- HOST_MEM_ACCESS: a CXL.mem access of the host, as ordinary traffic; a read returns as many bytes as `data` has. In recovery CXL.mem
does not train (R461, R468). -/
def execHostMemAccess (write : Bool) (addr : BitVec 64) (data : List (BitVec 8)) (s : State) : Out :=
  if s.recovery || !hostReaches s addr.toNat data.length then .next s
  else if write then .next { s with mem := s.mem.writeBytes addr.toNat data }
  else .next { s with hostRead := s.mem.readBytes addr.toNat data.length }

/-- The base of a naturally aligned window of 16 TiB. -/
def windowBase (a : Nat) : BitVec 64 := BitVec.ofNat 64 (a % 2 ^ 52 / 2 ^ 44 * 2 ^ 44)

/-- HDM_DECODER_WRITE: the window moves, and with it what it reaches (R356). -/
def execHdmDecoderWrite (base : BitVec 52) (s : State) : Out :=
  let b := windowBase base.toNat
  if b = s.hdmbase then .next s
  else
    let m := (s.mem.copy s.hdmbase.toNat b.toNat (2 ^ 44)).zero s.hdmbase.toNat (2 ^ 44)
    .next { s with mem := m, hdmbase := b }

/-! ### Power-on (R432, R467, R468) -/

/-- The firmware image that the boot ROM finds is accepted. -/
def imageAccepted (s : State) (img : List (BitVec 8)) : Bool :=
  Config.imageVerifies img && s.rollback.toNat ≤ (Config.imageVersion img).toNat

/-- What is left of memory after power-on: the host's. -/
def hostMemory (s : State) : Memory := s.mem.filter fun c => c.1 < 2 ^ 52 && (winOffset s c.1).isNone

/-- Capacities that the ports map: what their expanders enumerated, up to 2 TiB (R467). -/
def portCaps (l : List (BitVec 64)) : Vector (BitVec 64) 4 :=
  Vector.ofFn fun (i : Fin 4) => BitVec.ofNat 64 (min (l.getD i.val 0).toNat (2 ^ 41))

/-- POWER_ON_RESET; in recovery no link to an expander trains (R467, R468). -/
def execPowerOnReset (b : BootInfo) (s : State) : Out :=
  let img := s.stored.getD s.firmware
  let ok := imageAccepted s img
  .next { State.reset with
    mem := hostMemory s, hdmbase := windowBase b.hdm.toNat, memcap := portCaps (if ok then b.caps else []), firmware := img,
    rollback := s.rollback, recovery := !ok, ptp := { role := b.role, delay := b.delay, steps := b.steps, transport := b.transport },
    agenda := s.agenda, ctr := s.ctr }

/-! ### Expanders and links (R466, R467) -/

/-- EXPANDER_LOST: its range reaches nothing from now on. -/
def execExpanderLost (port : BitVec 2) (s : State) : Out :=
  if (s.memcap.toList.getD port.toNat 0) = 0 then .next s
  else .next ({ s with memcap := s.memcap.setIfInBounds port.toNat 0 }.event 6 port.toNat)

/-- FUOND_LINK_FAILED. -/
def execFuondLinkFailed (port : BitVec 4) (s : State) : Out :=
  .next ({ s with failedPorts := s.failedPorts ||| (1 <<< port.toNat) }.event 3 port.toNat)

/-! ### Time (R433, R466) -/

/-- Two points of time, in nanoseconds, apart. -/
def nsApart (x y : BitVec 64) : Int := Int.ofNat x.toNat - Int.ofNat y.toNat

/-- What the port, as a time receiver, learns from a message that arrives at `now`: its state, and the offset that a Sync gives, TIME less
the grandmaster's time (IEEE 1588-2019 as R433 names it; log entry 94). -/
def PtpPort.receive (p : PtpPort) (now : BitVec 64) : PtpBody → PtpPort × Option Int
  | .sync (some o) => ({ p with origin := some o, ingress := now }, some (nsApart now o - p.pathDelay))
  | .sync none => ({ p with origin := none, ingress := now }, none)
  | .followUp o => ({ p with origin := some o }, some (nsApart p.ingress o - p.pathDelay))
  | .delayResp r =>
    match p.delay, p.origin, p.request with
    | .requestResponse, some o, some q => ({ p with request := none, pathDelay := (nsApart p.ingress o + nsApart r q) / 2 }, none)
    | _, _, _ => (p, none)
  | .pdelayResp r turn =>
    match p.delay, p.request, turn with
    | .peerToPeer, some q, some w => ({ p with request := none, pathDelay := (nsApart now q - Int.ofNat w.toNat) / 2 }, none)
    | .peerToPeer, some _, none => ({ p with answer := some (r, now) }, none)
    | _, _, _ => (p, none)
  | .pdelayRespFollowUp o =>
    match p.delay, p.request, p.answer with
    | .peerToPeer, some q, some (r, t) =>
      ({ p with request := none, answer := none, pathDelay := (nsApart t q - nsApart o r) / 2 }, none)
    | _, _, _ => (p, none)
  | _ => (p, none)

/-- Messages that the port sends in answer. -/
def PtpPort.answers (p : PtpPort) : PtpBody → Nat
  | .delayReq => if p.role = .transmitter && p.delay = .requestResponse then 1 else 0
  | .pdelayReq => if p.delay = .peerToPeer then (if p.steps = .two then 2 else 1) else 0
  | _ => 0

/-- TIME is disciplined by an offset: it steps forward at the first lock, and later where it lags by more than 1 ms; what is left is slewed
away. -/
def discipline (s : State) (off : Int) : State :=
  let s : State := { s with ptpOffset := BitVec.ofInt 64 off }
  if off < 0 && (!s.ptpEver || off < -1000000) then
    { s with time := BitVec.ofNat 64 (min (s.time.toNat + off.natAbs) (2 ^ 64 - 1)), ptpSlew := 0, ptpOffset := 0 }
  else { s with ptpSlew := -8000 * off }

/-- PTP_MESSAGE: a message at the management port, and the lock that the servo reports with it; gaining lock appends event 5 (R433,
R466). A message of another transport than the port's is not taken. -/
def execPtpMessage (m : PtpMessage) (s : State) : Out :=
  if m.transport ≠ s.ptp.transport then .next s
  else
    let r := if s.ptp.role = .receiver then s.ptp.receive s.time m.body else (s.ptp, none)
    let u : State := { s with ptp := r.1, syncs := s.syncs + s.ptp.answers m.body }
    match r.2 with
    | none => .next u
    | some off =>
      if !(m.locked || s.ptpLocked) then .next { u with ptpOffset := BitVec.ofInt 64 off }
      else
        let v : State := { discipline u off with ptpLocked := true, ptpEver := true }
        .next (if s.ptpLocked then v else v.event 5 0)

/-- PTP_LOCK_LOST: event 4 (R466). -/
def execPtpLockLost (s : State) : Out :=
  if s.ptpLocked then .next ({ s with ptpLocked := false }.event 4 0) else .next s

/-- SYNC_INTERVAL: the port sends its next Sync, with a Follow_Up where it is two-step, or its next delay request (R433). -/
def execSyncInterval (_port : BitVec 4) (s : State) : Out :=
  if s.ptp.role = .transmitter then .next { s with syncs := s.syncs + (if s.ptp.steps = .two then 2 else 1) }
  else .next { s with syncs := s.syncs + 1, ptp := { s.ptp with request := some s.time, answer := none } }

end
end Sys2Proof.Machine
end

