-- ==== Sys2Proof/Machine/LoadStore.lean ====
section
/-! DEFINITION. Scalar loads and stores, LD.ACQ and ST.REL (spec/05_general_registers.md R131 to R134). -/

namespace Sys2Proof.Machine
open Sys2Proof

noncomputable section

/-- A scalar load of element type `w` at `va` into `d` (R131, R132). -/
def scalarLoad (i : Instr) (srcs : List Reg) (d : Reg) (w : BitVec 3) (va : Thread → BitVec 64) (s : State) : Out :=
  issue i srcs [d] s fun t u =>
    let a := va t
    if !aligned a (eBytes w) then misaligned s t i a 1
    else match locate s (t.who s) a .read false with
      | (.at l, s') => done s' (u.result d (loadExtend w (loadT s' t l (eBytes w)))) i
      | (.wait, s') => wait s' t i
      | (.bad e, s') => scalarTrap s' t i e

/-- A store at a place: performed, or with `held` kept by the thread to be performed later, where it goes to plain memory and no
combining buffer takes it (R133, R391). -/
def storeOrHold (held : Bool) (s : State) (u : Thread) (va : BitVec 64) (l : Loc) (n v : Nat) : Except Trap (State × Thread) :=
  match held && !u.det, l with
  | true, .mem key =>
    .ok (s, { u with cbuf := u.cbuf ++ [(key, bytesLE n v)],
                     cvia := ((storedVia s u.aspace va).toList.filter fun x => !u.cvia.contains x) ++ u.cvia })
  | _, _ => storeT { s with mem := performOwed s.mem u.cbuf } { u with cbuf := [], cvia := [] } va l n v

/-- A scalar store of the low bytes of `v` at `va` (R131, R132). -/
def scalarStore (held : Bool) (i : Instr) (srcs : List Reg) (n : Nat) (va v : Thread → BitVec 64) (s : State) : Out :=
  issue i srcs [] s fun t u =>
    let a := va t
    if !aligned a n then misaligned s t i a 2
    else match locate s (t.who s) a .write (n < 8 && !t.det) with
      | (.at l, s') =>
        match storeOrHold held s' u a l n ((v t).toNat % 2 ^ (8 * n)) with
        | .ok (s', u) => done s' u i
        | .error e => scalarTrap s' t i e
      | (.wait, s') => wait s' t i
      | (.bad e, s') => scalarTrap s' t i e

/-- A store to memory at register plus offset, performed or held. -/
def storeSt (held : Bool) (x : Ext) (i : BitVec 6) (w : BitVec 3) (b a : Reg) (j : BitVec 5) (s : State) : Out :=
  scalarStore held (.st x i w b a j) [a, b] (eBytes w) (fun t => t.src a + offS x i j) (fun t => t.src b) s

/-- The compressed store, performed or held. -/
def storeCSt (held : Bool) (x d : Reg) (s : State) : Out :=
  scalarStore held (.cStI64 x d) [2, d] 8 (fun t => t.src 2 + BitVec.ofNat 64 (8 * x.toNat)) (fun t => t.src d) s

/-- LD (R131). -/
def execLd (x : Ext) (i : BitVec 11) (w : BitVec 3) (a d : Reg) (s : State) : Out :=
  scalarLoad (.ld x i w a d) [a] d w (fun t => t.src a + offM x i) s

/-- ST (R131). -/
def execSt (x : Ext) (i : BitVec 6) (w : BitVec 3) (b a : Reg) (j : BitVec 5) (s : State) : Out := storeSt false x i w b a j s

/-- LD.ACQ: the C stream of this model performs accesses in program order, so the acquire adds no effect of its own (R134). -/
def execLdAcq (sc w : BitVec 3) (a d : Reg) (s : State) : Out :=
  scalarLoad (.ldAcq sc w a d) [a] d w (fun t => t.src a) s

/-- ST.REL: performed at its home after the implicit drain, which a store that traps does not make (R134, R406, R443). -/
def execStRel (sc w : BitVec 3) (b a : Reg) (s : State) : Out :=
  let i := Instr.stRel sc w b a
  issue i [a, b] [] s fun t u =>
    let va := t.src a
    let n := eBytes w
    if !aligned va n then misaligned s t i va 2
    else
      match locate s (t.who s) va .write (n < 8 && !t.det) with
      | (.at l, s') => withDrain s' t i (done (storeHome s' t.part l n ((t.src b).toNat % 2 ^ (8 * n))) u i)
      | (.wait, s') => wait s' t i
      | (.bad e, s') => scalarTrap s' t i e

/-- The compressed LD.i64 gD, [g2 + 8·X] (R72). -/
def execCLdI64 (x d : Reg) (s : State) : Out :=
  scalarLoad (.cLdI64 x d) [2] d 3 (fun t => t.src 2 + BitVec.ofNat 64 (8 * x.toNat)) s

/-- The compressed ST.i64 gD, [g2 + 8·X] (R72). -/
def execCStI64 (x d : Reg) (s : State) : Out := storeCSt false x d s

end
end Sys2Proof.Machine
end

