-- ==== Sys2Proof/Machine/Tmap.lean ====
section
/-! DEFINITION. The TMAP major (spec/13_tile_map_and_pending_logs.md R325, R334 to R338). -/

namespace Sys2Proof.Machine
open Sys2Proof

noncomputable section

/-! ### TMAPSET -/

/-- Two ranges of addresses, each a base and a length, overlap. -/
def overlaps (x y : Nat × Nat) : Bool := x.1 < y.1 + y.2 && y.1 < x.1 + x.2

/-- The whole apertures of a partition (R268). -/
def Partition.apertures (p : Partition) : List (Nat × Nat) := [(p.uva.toNat, 65536), (p.cva.toNat, 2 ^ 22)]

/-- The VBASE and SVA ranges of the registered version table (R340). -/
def versionRanges (s : State) : List (Nat × Nat) :=
  (s.vgiven.map fun g => [(g.vbase.toNat, g.size.toNat), (g.sva.toNat, g.size.toNat)]).flatten

def TiledWin.range (w : TiledWin) : Nat × Nat := (w.vbase.toNat, w.ntile.toNat * tileBytes)

/-- A tile of a window is in or has FILL ≠ 0 (R337); only entries with a listed byte can be. DEDUCED: one that is arriving or leaving
counts too, of which R337 says nothing (log entry 112). -/
def windowBusy (s : State) (p : Partition) (win : Nat) (w : TiledWin) : Bool :=
  (p.transit.any fun t => t.win == win) || (w.listed s.mem).any fun k =>
    let e := w.entry s.mem k
    e.state == 2 || (e.state == 1 && e.fill != 0)

/-- The window of a descriptor, with what its free list and its map hold now (R325 to R327). DESIGN CHOICE: an entry of the free list that
is misaligned or lies outside the partition's banks is kept like any other, since no rule has TMAPSET look at it (log entry 113). -/
def newWindow (m : Memory) (vbase ntile map free cap : Nat) : TiledWin :=
  let w : TiledWin :=
    { vbase := .ofNat 64 vbase, ntile := .ofNat 32 ntile, map := .ofNat 64 map, free := .ofNat 64 free, cap := .ofNat 32 cap }
  let ks := w.listed m
  { w with
    slots := ((List.range (min (m.readN free 8) cap)).map fun i => m.readN (free + 8 + 8 * i) 8)
      ++ (ks.filter fun k => (w.entry m k).state == 2).map (fun k => (w.entry m k).slot),
    homes := ks.map fun k => (k, (w.entry m k).back, (w.entry m k).log) }

/-- The result of TMAPSET for a descriptor, and the partition after it; NTILE = 0 removes the window (R325, R337). -/
def registerWindow (s : State) (p : Partition) (bs : List (BitVec 8)) : Nat × Partition :=
  let w (k n : Nat) : Nat := ofBytesLE ((bs.drop k).take n)
  let win := w 12 1
  let old := (p.windows.find? fun x => x.1 == win).map Prod.snd
  let rest := p.windows.filter fun x => x.1 != win
  let busy := match old with
    | some o => windowBusy s p win o
    | none => false
  let new := newWindow s.mem (w 0 8) (w 8 4) (w 16 8) (w 24 8) (w 32 4)
  if 7 < win ∨ w 13 3 ≠ 0 ∨ w 36 28 ≠ 0 ∨ w 0 8 % tileBytes ≠ 0 ∨ !canonical (w 0 8) ∨ 2 ^ 24 < w 8 4 ∨ w 16 8 % 32 ≠ 0
      ∨ w 24 8 % 8 ≠ 0 ∨ w 32 4 = 0 ∨ 2 ^ 20 < w 32 4 ∨ 2 ^ 52 < w 16 8 + 32 * w 8 4 ∨ 2 ^ 52 < w 24 8 + 8 + 8 * w 32 4 then (1, p)
  else if w 8 4 ≠ 0 ∧ (p.apertures ++ versionRanges s ++ rest.map fun x => x.2.range).any (overlaps new.range) then (2, p)
  else if busy then (3, p)
  else if w 8 4 = 0 then (0, { p with windows := rest })
  else (0, { p with windows := rest ++ [(win, new)] })

/-- TMAPSET (R336, R337). -/
def execTmapset (a d : Reg) (s : State) : Out :=
  let i := Instr.tmapset a d
  issue i [a] [d] s fun t u =>
    let va := t.src a
    if !t.sup then illegal s t i
    else if !aligned va 32 then misaligned s t i va 1
    else match readBlockC t 2 va s with
      | .wait s' => wait s' t i
      | .bad tr s' => scalarTrap s' t i tr
      | .ok bs s' =>
        let r := registerWindow s' (s'.partOf t) bs
        done (s'.setPart t.part r.2) (u.result d (BitVec.ofNat 64 r.1)) i

/-! ### TFETCH, TEVICT, TCOMPACT, TSTAT -/

/-- What an address names for these instructions (R327, R337). -/
inductive TileRef where
  /-- no window, or an absent tile -/
  | none
  | moving (tr : Transit)
  | bad (tr : Trap)
  | tile (win : Nat) (w : TiledWin) (k : Nat) (e : TileEntry)
  deriving DecidableEq, Repr

def tileRef (s : State) (t : Thread) (va : BitVec 64) : TileRef :=
  let p := s.partOf t
  match p.tileOf va with
  | none => .none
  | some (win, w, k, _) =>
    let e := w.entry s.mem k
    match p.transitOf win k with
    | some tr => .moving tr
    | none =>
      if 2 < e.state then .bad (tileTrap 9 va .read k)
      else if e.state = 0 then .none
      else if !e.ok s p w k then .bad (tileTrap 9 va .read k)
      else .tile win w k e

/-- TFETCH: it returns when the tile is in (R334, R337). -/
def execTfetch (a d : Reg) (s : State) : Out :=
  let i := Instr.tfetch a d
  issue i [a] [d] s fun t u =>
    match tileRef s t (t.src a) with
    | .none => done s (u.result d 2) i
    | .bad tr => scalarTrap s t i tr
    | .moving tr => wait s { t with arrived := tr.arriving } i
    | .tile win w k e =>
      if e.state = 2 then done s (u.result d (if t.arrived then 0 else 1)) i
      else match startFetch s t.part win w k with
        | none => done s (u.result d 3) i
        | some s' => wait s' { t with arrived := true } i

/-- Put a tile into leaving (R328). -/
def startLeave (s : State) (t : Thread) (win k : Nat) (e : TileEntry) : State :=
  let p := s.partOf t
  s.setPart t.part { p with transit := ⟨win, k, false, BitVec.ofNat 64 e.slot⟩ :: p.transit }

/-- Tiles of a window that are leaving: each slot goes back to the free list. -/
def Partition.leaving (p : Partition) (win : Nat) : Nat := (p.transit.filter fun t => t.win == win && !t.arriving).length

/-- TEVICT; the slots of tiles that are still leaving have their room on the free list (R335, R337). -/
def execTevict (a d : Reg) (s : State) : Out :=
  let i := Instr.tevict a d
  issue i [a] [d] s fun t u =>
    match tileRef s t (t.src a) with
    | .none => done s (u.result d 2) i
    | .bad tr => scalarTrap s t i tr
    | .moving tr => wait s { t with arrived := !tr.arriving } i
    | .tile win w k e =>
      if e.state = 1 then done s (u.result d (if t.arrived then 0 else 1)) i
      else if w.cap.toNat ≤ s.mem.readN w.free.toNat 8 + (s.partOf t).leaving win then done s (u.result d 3) i
      else wait (startLeave s t win k e) { t with arrived := true } i

/-- TCOMPACT (R332, R333, R337). -/
def execTcompact (a d : Reg) (s : State) : Out :=
  let i := Instr.tcompact a d
  issue i [a] [d] s fun t u =>
    match tileRef s t (t.src a) with
    | .none => done s (u.result d (-1)) i
    | .bad tr => scalarTrap s t i tr
    | .moving _ => wait s t i
    | .tile win w k e =>
      if e.state = 2 then done s (u.result d 0) i
      else
        let s' := compactTile s t.part win w k
        done s' (u.result d (BitVec.ofNat 64 (w.entry s'.mem k).fill)) i

/-- The status word of a tile (R337): STATE 3 arriving, 4 leaving. -/
def tileStatus (e : TileEntry) (state : Nat) : BitVec 64 :=
  BitVec.ofNat 64 (e.slot / 2 ^ 16 * 2 ^ 16 + e.fill % 2 ^ 10 * 16 + state)

/-- TSTAT (R328, R337). -/
def execTstat (a d : Reg) (s : State) : Out :=
  let i := Instr.tstat a d
  issue i [a] [d] s fun t u =>
    let va := t.src a
    match tileRef s t va with
    | .none => done s (u.result d 0) i
    | .bad tr => scalarTrap s t i tr
    | .moving tr =>
      match (s.partOf t).tileOf va with
      | some (_, w, k, _) => done s (u.result d (tileStatus (w.entry s.mem k) (if tr.arriving then 3 else 4))) i
      | none => done s (u.result d 0) i
    | .tile _ _ _ e => done s (u.result d (tileStatus e e.state)) i

/-! ### TLOG (R336, R338) -/

/-- The operand of a TLOG: an xadd of bf16 is widened exactly to f32. -/
def tlogVal (op : BitVec 4) (ty : Reg) (v : Nat) : Nat :=
  if op = 1 then (if ty = 8 then v % 2 ^ 16 * 2 ^ 16 else v % 2 ^ 32)
  else v % 2 ^ (8 * (MFmt.ofCode ty.toNat).bytes)

/-- The log entry a TLOG appends at an offset of a tile (R331, R336). -/
def tlogEntry (op : BitVec 4) (ty : Reg) (v off : Nat) : LogE :=
  let w := if op = 1 then 3 else Nat.log2 (MFmt.ofCode ty.toNat).bytes
  ⟨tlogVal op ty v, off, op.toNat, w, (op = 3 || op = 4) && ty.toNat < 4⟩

/-- The update of an ordinary location by a TLOG, as one atomic (R336). -/
def tlogUpdate (s : State) (part : Nat) (ls : List Loc) (e : LogE) : State :=
  if e.op = 1 then addToCell s part ls (decodeF .f32 e.val)
  else match ls with
    | l :: _ => storeHome s part l e.len (logUpdate e.op e.len e.signed (loadHome s l e.len) e.val)
    | [] => s

/-- The tile of an address is out, and no transition is under way. -/
def tileOut (s : State) (t : Thread) (va : BitVec 64) : Bool :=
  match tileRef s t va with
  | .tile _ _ _ e => e.state == 1
  | _ => false

/-- An exact cell at an address passes the end of a tile, so that no log takes an entry for it (R331; log entry 105). -/
def crossesTile (op : BitVec 4) (va : BitVec 64) : Bool := op == 1 && tileBytes < va.toNat % tileBytes + 96

/-- TLOG: appended on an out tile, else an atomic update; a st under determinism forces the fetch and is then combined. A blocked
TLOG remembers in `arrived` that it forced one (R336, R338). -/
def execTlog (op : BitVec 4) (b a d : Reg) (s : State) : Out :=
  let i := Instr.tlog op b a d
  issue i [a, b] [] s fun t u =>
    let va := t.src a
    let n := if op = 1 then 32 else (MFmt.ofCode d.toNat).bytes
    let st := t.det && op = 7
    let out := tileOut s t va
    if !aligned va n then misaligned s t i va 2
    else match locate s (t.who s) va .atomic (!st && !crossesTile op va) with
      | (.wait, s') => wait s' { t with arrived := t.arrived || (st && out) } i
      | (.bad tr, s') => scalarTrap s' t i tr
      | (.at (.logged win w tile off), s') => done (appendLog s' t.part win w tile (tlogEntry op d (t.src b).toNat off)) u i
      | (.at l, s') =>
        if st && t.arrived then
          match storeT s' u va l n (tlogVal op d (t.src b).toNat) with
          | .ok (s', u) => done s' u i
          | .error e => scalarTrap s' t i e
        else if op = 1 then
          match locateAll (t.who s') .atomic (cellPieces va) s' with
          | .wait s' => wait s' t i
          | .bad tr s' => scalarTrap s' t i tr
          | .ok ls s' => done (tlogUpdate s' t.part ls (tlogEntry op d (t.src b).toNat 0)) u i
        else done (tlogUpdate s' t.part [l] (tlogEntry op d (t.src b).toNat 0)) u i

end
end Sys2Proof.Machine
end

