-- ==== Sys2Proof/Machine/Mailbox.lean ====
section
/-! DEFINITION. The management controller: the mailbox channels and the commands of R464, and SPDM
(spec/06_control_threads.md R145; spec/11_scratchpads_and_vector_memory.md R267; spec/14_policy_versions.md R339 to R343;
spec/20_traps_and_context.md R445; spec/21_power_host_and_management.md R462 to R470). -/

namespace Sys2Proof.Machine
open Sys2Proof

noncomputable section

/-! ### Channels (R462, R463, R470) -/

/-- A command as the controller reads it. -/
structure Cmd where
  seq : BitVec 64
  op : Nat
  a0 : BitVec 64
  a1 : BitVec 64
  a2 : BitVec 64
  /-- the reserved bytes of the record are zero -/
  clean : Bool
  deriving DecidableEq, Repr

/-- The command record at the base of a mailbox channel. -/
def readCmd (m : Memory) (b : Nat) : Cmd :=
  let w (k : Nat) : BitVec 64 := BitVec.ofNat 64 (m.readN (b + k) 8)
  { seq := w 0, op := m.readN (b + 8) 4, a0 := w 16, a1 := w 24, a2 := w 32,
    clean := m.readN (b + 12) 4 == 0 && m.readN (b + 40) 24 == 0 }

/-- The command that waits on a channel: a mailbox whose SEQ has changed, or a datagram inside a secured session. -/
def pendingCmd (s : State) : Channel → Option Cmd
  | .host => let c := readCmd s.mem (s.mailbox false); if c.seq = s.seqHost then none else some c
  | .supervisor => let c := readCmd s.mem (s.mailbox true); if c.seq = s.seqSup then none else some c
  | .management r => if s.mgmtSession then some ⟨r.seq, r.op.toNat, r.arg0, r.arg1, r.arg2, r.clean⟩ else none

/-- What a command comes to: RESULT, VALUE0 and VALUE1. -/
structure Answer where
  result : BitVec 64 := 0
  value0 : BitVec 64 := 0
  value1 : BitVec 64 := 0
  deriving DecidableEq, Repr

def refuse (code : BitVec 64) : Answer := { result := code }

/-- A response record in a mailbox channel, SEQ written last. -/
def writeResponse (m : Memory) (b : Nat) (seq : BitVec 64) (a : Answer) : Memory :=
  ((m.writeBytes (b + 0x48) (bytesLE 8 a.result.toNat ++ bytesLE 8 a.value0.toNat ++ bytesLE 8 a.value1.toNat ++ bytesLE 32 0)).writeN
    (b + 0x40) 8 seq.toNat)

/-- Answer a command on its channel. -/
def respond (s : State) (ch : Channel) (seq : BitVec 64) (a : Answer) : State :=
  match ch with
  | .host => { s with mem := writeResponse s.mem (s.mailbox false) seq a, seqHost := seq }
  | .supervisor => { s with mem := writeResponse s.mem (s.mailbox true) seq a, seqSup := seq }
  | .management _ => { s with sent := s.sent ++ [{ seq := seq, result := a.result, value0 := a.value0, value1 := a.value1 }] }

/-- Execute the waiting command where it is `op` under `sub`; one that recovery bars gives −5 (R463). -/
def command (ch : Channel) (op : Nat) (sub : BitVec 64 → Bool) (inRecovery : Bool) (s : State) (f : Cmd → Answer × State) : Out :=
  match pendingCmd s ch with
  | none => .next s
  | some c =>
    if c.op ≠ op || !sub c.a0 || !c.clean then .next s
    else if s.recovery && !inRecovery then .next (respond s ch c.seq (refuse (-5)))
    else
      let r := f c
      .next (respond r.2 ch c.seq r.1)

def anyArg (_ : BitVec 64) : Bool := true

/-- UNKNOWN_COMMAND: an OP that R464 does not list, or a reserved byte that is not zero (R463). -/
def execUnknownCommand (ch : Channel) (s : State) : Out :=
  match pendingCmd s ch with
  | none => .next s
  | some c => if c.op = 0 || 14 < c.op || !c.clean then .next (respond s ch c.seq (refuse (-1))) else .next s

/-! ### What the commands read -/

/-- Every byte of a physical range reaches something. -/
def rangeReaches (s : State) (a n : Nat) : Bool := (List.range n).all fun i => reaches s (a + i)

/-- Partition number `a` is one of the 16. -/
def partArg (a : BitVec 64) : Bool := a.toNat < 16

def State.partNo (s : State) (a : BitVec 64) : Partition := s.parts.toList.getD a.toNat {}

/-! ### Partitions (R145, R267, R343) -/

/-- A partition descriptor with its window descriptor. -/
structure PartDesc where
  first : Nat
  rest : Bool
  clusters : BitVec 256
  ranges : List (Nat × Nat)
  lqbase : Nat
  savebase : Nat
  ishape : BitVec 64
  uva : Nat
  uwlog : Nat
  cva : Nat
  wrest : Bool
  deriving DecidableEq, Repr

def readPartDesc (m : Memory) (a : Nat) : PartDesc :=
  let w (k n : Nat) : Nat := m.readN (a + k) n
  { first := w 0 1, rest := w 1 7 == 0 && w 128 128 == 0, clusters := BitVec.ofNat 256 (w 8 32),
    ranges := ((List.range 8).map fun i => (w (40 + 8 * i) 4, w (44 + 8 * i) 4)).filter fun r => r.2 != 0,
    lqbase := w 104 8, savebase := w 112 8, ishape := BitVec.ofNat 64 (w 120 8), uva := w 256 8, uwlog := w 264 1,
    cva := w 272 8, wrest := w 265 7 == 0 && w 280 40 == 0 }

/-- A physical address lies in a bank of the descriptor's ranges. -/
def PartDesc.inRanges (d : PartDesc) (s : State) (a : Nat) : Bool :=
  match bankAt s a with
  | some g => d.ranges.any fun r => r.1 ≤ g && g < r.1 + r.2
  | none => false

/-- The limits that a descriptor keeps on its own (R145, R267, R436, R455, R463). A launch queue of 128 KiB meets every bank that one of
its 4 KiB pages begins in. -/
def PartDesc.sound (d : PartDesc) (s : State) : Bool :=
  d.first / 2 == 0 && d.rest && (d.ranges.all fun r => r.1 + r.2 ≤ 2048) && d.lqbase % 4096 == 0
    && ((List.range 32).all fun k => d.inRanges s (d.lqbase + 4096 * k))
    && d.savebase % 65536 == 0 && d.savebase + 65536 + 16384 * 16384 ≤ 2 ^ 52 && ishapeOk d.ishape
    && d.uva % 65536 == 0 && canonical d.uva && 12 ≤ d.uwlog && d.uwlog ≤ 16 && d.cva % 2 ^ 22 == 0 && canonical d.cva && d.wrest
    && !overlaps (d.uva, 65536) (d.cva, 2 ^ 22)

/-- A cluster or a bank belongs to another valid partition, or an aperture overlaps a version range or a tiled window of the partition. -/
def PartDesc.conflicts (d : PartDesc) (s : State) (pn : Nat) (old : Partition) : Bool :=
  ((List.range 16).any fun q =>
      let p := s.parts.toList.getD q {}
      q != pn && p.valid && (p.clusters &&& d.clusters != 0 || p.ranges.any fun r => d.ranges.any (overlaps r)))
    || ((versionRanges s ++ old.windows.map fun x => x.2.range).any fun r =>
      overlaps r (d.uva, 65536) || overlaps r (d.cva, 2 ^ 22))

/-- The work queues of a partition's facets are emptied (R156). -/
def emptyQueues (s : State) (p : Partition) : State :=
  { s with facets := s.facets.map fun x => if p.hasFacet x.1 then (x.1, { x.2 with items := [] }) else x }

/-- Versions whose pins have still to leave after the binding ends (R343). -/
def Partition.endedBinding (p : Partition) : List Nat := if p.bound then p.oldVers ++ [p.ver.toNat] else p.oldVers

/-- Clear a partition. -/
def clearPart (s : State) (pn : Nat) : State :=
  let p := s.parts.toList.getD pn {}
  if p.valid then (emptyQueues s p).setPart pn { oldVers := p.endedBinding } else s

/-- Cluster scratchpads read as zero when their partition is activated (R269). -/
def zeroClusters (m : Memory) (clusters : BitVec 256) : Memory :=
  (List.range 256).foldl (fun m c => if clusters.getLsbD c then m.zero (clusterKey c 0) (2 ^ 22) else m) m

/-- Images of a free list (R436). -/
def freeImages (m : Memory) (free cap : Nat) : List Nat := (List.range (min (m.readN free 8) cap)).map fun i => m.readN (free + 8 + 8 * i) 8

/-- Activate a partition, or replace one: what the header of its save area and its free list hold is taken now (R11, R145, R436). -/
def activatePart (s : State) (pn : Nat) (d : PartDesc) : State :=
  let old := s.parts.toList.getD pn {}
  let s := if old.valid then emptyQueues s old else s
  let lat : BitVec 16 := match s.vtab with
    | some b => latest s.mem b.toNat
    | none => 0
  let m := match s.vtab with
    | some b => pinAll s.mem b.toNat lat true
    | none => s.mem
  let p : Partition :=
    { valid := true, clusters := d.clusters, ranges := d.ranges, lqbase := BitVec.ofNat 64 d.lqbase, savebase := BitVec.ofNat 64 d.savebase,
      tvec := BitVec.ofNat 64 (m.readN d.savebase 8), fva := BitVec.ofNat 64 (m.readN (d.savebase + 8) 8),
      freeList := BitVec.ofNat 64 (m.readN (d.savebase + 16) 8), imageCap := BitVec.ofNat 32 (m.readN (d.savebase + 24) 4),
      images := freeImages m (m.readN (d.savebase + 16) 8) (m.readN (d.savebase + 24) 4),
      creditAt := s.cyc / 2, ishape := d.ishape, uva := BitVec.ofNat 64 d.uva, uwlog := BitVec.ofNat 8 d.uwlog, cva := BitVec.ofNat 64 d.cva,
      windows := old.windows, transit := old.transit, compacting := old.compacting, bound := s.vtab.isSome, ver := lat,
      oldVers := old.endedBinding, debugger := old.debugger }
  { s with mem := zeroClusters m d.clusters }.setPart pn p

/-- PARTSET (R145, R267, R464). -/
def execPartset (ch : Channel) (s : State) : Out :=
  command ch 2 anyArg false s fun c =>
    let pn := c.a0.toNat
    let old := s.partNo c.a0
    if !partArg c.a0 || c.a1.toNat % 32 ≠ 0 || !rangeReaches s c.a1.toNat 320 then (refuse (-2), s)
    else
      let d := readPartDesc s.mem c.a1.toNat
      if d.first % 2 = 0 then
        if d.first ≠ 0 || !d.rest then (refuse (-2), s)
        else if !old.launches.isEmpty then (refuse (-3), s)
        else ({}, clearPart s pn)
      else if !d.sound s then (refuse (-2), s)
      else if !old.launches.isEmpty || d.conflicts s pn old then (refuse (-3), s)
      else ({}, activatePart s pn d)

/-- LMAX (R324). -/
def execLmax (ch : Channel) (s : State) : Out :=
  command ch 3 anyArg false s fun c =>
    if !partArg c.a0 || c.a1.toNat < 64 || 4095 < c.a1.toNat then (refuse (-2), s)
    else if !(s.partNo c.a0).valid then (refuse (-3), s)
    else ({}, s.setPart c.a0.toNat { s.partNo c.a0 with lmax := c.a1 })

/-! ### The version table (R339 to R343) -/

/-- A range of physical bytes lies in die banks. -/
def inDieBanks (s : State) (a n : Nat) : Bool := n != 0 && (bankAt s a).isSome && (bankAt s (a + n - 1)).isSome

/-- The checks of R341 and the limits of R340 on one valid region. -/
def regionOk (s : State) (base r : Nat) (lat : BitVec 16) : Bool :=
  let g := readRegion s.mem base r
  let js := List.range 4
  let used := js.filter fun j => j < g.nslot
  let pub := used.filter fun j => g.st j == 1
  g.vbase % 65536 == 0 && canonical g.vbase && g.sva % 65536 == 0 && canonical g.sva && g.size != 0 && g.size % 65536 == 0
    && 2 ≤ g.nslot && g.nslot ≤ 4 && (js.all fun j => g.st j != 3)
    && (used.filter fun j => g.st j == 2).length == 1 && !pub.isEmpty
    && (used.all fun j => let a := g.slots.getD j 0; a % 65536 == 0 && inDieBanks s a g.size)
    && (js.all fun j => j < g.nslot || (g.slots.getD j 0 == 0 && g.ver j == 0 && g.st j == 0))
    && (js.all fun j => g.pin j == 0)
    && (pub.all fun j => !verAfter (g.ver j) lat && !farBehind lat (g.ver j))
    && (pub.map g.ver).Nodup && s.mem.readN (regionAddr base r + 76) 52 == 0

/-- The ranges of a region. -/
def regionRanges (m : Memory) (base r : Nat) : List (Nat × Nat) :=
  let g := readRegion m base r
  [(g.vbase, g.size), (g.sva, g.size)]

/-- The table breaks its limits on its own. -/
def tableBad (s : State) (base : Nat) : Bool :=
  let valid := validRegions s.mem base
  s.mem.readN (base + 2) 6 != 0 || s.mem.readN (base + 18) 110 != 0
    || (valid.any fun r => !regionOk s base r (latest s.mem base))
    || valid.any fun r => valid.any fun q => r != q &&
      (regionRanges s.mem base r).any fun x => (regionRanges s.mem base q).any (overlaps x)

/-- The ranges overlap an aperture or a tiled window of a valid partition. -/
def tableConflicts (s : State) (base : Nat) : Bool :=
  (validRegions s.mem base).any fun r => (regionRanges s.mem base r).any fun x =>
    s.parts.toList.any fun p => p.valid && (p.apertures ++ p.windows.map fun w => w.2.range).any (overlaps x)

def tableSize : Nat := 128 + 64 * 128

/-- Bind every valid partition to LATEST. -/
def bindAll (s : State) (base : Nat) : State :=
  let lat := latest s.mem base
  (List.range 16).foldl (fun (s : State) q =>
    let p := s.parts.toList.getD q {}
    if p.valid then { s with mem := pinAll s.mem base lat true }.setPart q { p with bound := true, ver := lat, oldVers := [] }
    else s.setPart q { p with oldVers := [] }) s

/-- VTAB with ARG0 = 0, and with an ARG0 that names no form (R341, R464). -/
def execVtabRegister (ch : Channel) (s : State) : Out :=
  command ch 4 (fun a => a != 1) false s fun c =>
    let base := c.a1.toNat
    if c.a0 ≠ 0 || !inDieBanks s base tableSize || tableBad s base then (refuse (-2), s)
    else if s.vtab.isSome || tableConflicts s base then (refuse (-3), s)
    else ({}, bindAll { s with vtab := some c.a1, vpins := [], vgiven := givenRegions s.mem base } base)

/-- Every pin of the table ends (R343). -/
def dropPins (m : Memory) (base : Nat) : Memory :=
  (validRegions m base).foldl (fun m r => (List.range 4).foldl (fun m j => setPin m base r j 0) m) m

/-- VTAB with ARG0 = 1 (R343, R464). -/
def execVtabRemove (ch : Channel) (s : State) : Out :=
  command ch 4 (fun a => a == 1) false s fun _ =>
    match s.vtab with
    | none => (refuse (-3), s)
    | some b =>
      if s.parts.toList.any fun p => !p.launches.isEmpty then (refuse (-3), s)
      else
        ({}, { s with mem := dropPins s.mem b.toNat, vtab := none, vpins := [], vgiven := [],
                      parts := s.parts.map fun (p : Partition) => { p with bound := false, oldVers := [] } })

/-! ### Plans and the package number (R418, R464) -/

/-- The plan that an image describes; none where a field breaks its limits. -/
def readPlan (s : State) (part a : Nat) : Option Plan :=
  let m := s.mem
  if !rangeReaches s a 64 then none
  else
    let n := m.readN a 4
    let lv := m.readN (a + 4) 1
    let sl := m.readN (a + 5) 1
    if lv = 0 || 3 < lv || sl = 0 || 64 < sl || m.readN (a + 6) 2 ≠ 0 || m.readN (a + 16) 48 ≠ 0 then none
    else if !rangeReaches s (a + 64) (4 * n) then none
    else
      let es := (List.range n).map fun i => m.readN (a + 64 + 4 * i) 4
      if es.any fun e => 65536 ≤ e then none
      else some { handle := 0, part := part, members := es.map (BitVec.ofNat 16), levels := lv, slots := sl, latns := 0,
                  abtns := BitVec.ofNat 64 (m.readN (a + 8) 8) }

/-- A handle that names no loaded plan, never 0 (log entry 26). -/
def freshPlan (s : State) : BitVec 32 :=
  let used := 0 :: s.plans.map fun p => p.handle.toNat
  BitVec.ofNat 32 (freshFrom used (used.length + 1) (Config.planHandle s.ctr).toNat)

/-- PLANLD (R418, R464; log entry 9). -/
def execPlanld (ch : Channel) (s : State) : Out :=
  command ch 5 anyArg false s fun c =>
    match (if partArg c.a0 then readPlan s c.a0.toNat c.a1.toNat else none) with
    | none => (refuse (-2), s)
    | some p =>
      if !(s.partNo c.a0).valid then (refuse (-3), s)
      else if !Config.hopsHaveSlots s.ctr then (refuse (-4), s.tick)
      else
        let p := { p with handle := freshPlan s, latns := planLatns s p.members }
        ({ value0 := p.handle.setWidth 64, value1 := p.latns }, { s with plans := s.plans ++ [p] }.tick)

/-- A transfer on a plan is in flight. -/
def planBusy (s : State) (part : Nat) (h : BitVec 32) : Bool :=
  (s.sends.any fun x => x.load.key.part == part && x.load.key.plan == h)
    || s.threads.any fun t => t.part == part && ((runningFabric t).any fun x => x.2 == h)

/-- PLANFR (R464). -/
def execPlanfr (ch : Channel) (s : State) : Out :=
  command ch 6 anyArg false s fun c =>
    let h : BitVec 32 := c.a1.setWidth 32
    if !partArg c.a0 || c.a1 = 0 || 2 ^ 32 ≤ c.a1.toNat then (refuse (-2), s)
    else if !(s.plans.any fun p => p.part == c.a0.toNat && p.handle == h) || planBusy s c.a0.toNat h then (refuse (-3), s)
    else ({}, { s with plans := s.plans.filter fun p => !(p.part == c.a0.toNat && p.handle == h) })

/-- PKGID (R464). -/
def execPkgid (ch : Channel) (s : State) : Out :=
  command ch 8 anyArg false s fun c =>
    if 65535 < c.a0.toNat then (refuse (-2), s)
    else if !s.plans.isEmpty then (refuse (-3), s)
    else ({}, { s with pkgid := c.a0.setWidth 16 })

/-! ### Registers of the package (R2, R452, R458, R464, R467) -/

/-- IDENT (R2, R464). -/
def execIdent (ch : Channel) (s : State) : Out :=
  command ch 1 anyArg true s fun _ => ({ value0 := Config.idWord.setWidth 64 }, s)

/-- SLEW (R458). -/
def execSlew (ch : Channel) (s : State) : Out :=
  command ch 7 anyArg false s fun c =>
    if c.a0.toNat < 50 || 4000 < c.a0.toNat then (refuse (-2), s) else ({}, { s with slew := c.a0.setWidth 16 })

/-- Facets marked failing. -/
def failingFacets (s : State) : Nat := (s.facets.filter fun x => x.2.failing).length

/-- STATUS (R464). -/
def execStatus (ch : Channel) (s : State) : Out :=
  command ch 10 anyArg true s fun _ =>
    ({ value0 := BitVec.ofNat 64 (encBool s.ptpLocked + encBool s.recovery * 2 + failingFacets s % 4096 * 2 ^ 16), value1 := s.ptpOffset }, s)

/-- SOFTC (R452, R464). -/
def execSoftc (ch : Channel) (s : State) : Out :=
  command ch 12 anyArg false s fun c =>
    if Config.facets ≤ c.a0.toNat then (refuse (-2), s) else ({ value0 := BitVec.ofNat 64 (s.facet c.a0.toNat).soft }, s)

/-- MEMCAP (R464, R467). -/
def execMemcap (ch : Channel) (s : State) : Out :=
  command ch 14 anyArg false s fun c =>
    if 3 < c.a0.toNat then (refuse (-2), s) else ({ value0 := s.memcap.toList.getD c.a0.toNat 0 }, s)

/-- Every byte of a range lies in the package's window: host memory is behind CXL.cache, which does not train in recovery (R461, R468). -/
def inWindow (s : State) (a n : Nat) : Bool := (List.range n).all fun i => (winOffset s (a + i)).isSome

/-- FWUPD: an image that R468 accepts is stored for the next reset. -/
def execFwupd (ch : Channel) (s : State) : Out :=
  command ch 11 anyArg true s fun c =>
    if !rangeReaches s c.a1.toNat c.a2.toNat || (s.recovery && !inWindow s c.a1.toNat c.a2.toNat) then (refuse (-2), s)
    else
      let img := s.mem.readBytes c.a1.toNat c.a2.toNat
      if imageAccepted s img then ({ value0 := Config.imageVersion img }, { s with stored := some img }) else (refuse (-2), s)

/-! ### LAUNCH (R465) -/

/-- LAUNCH: the checks of R147 in the order that R465 gives. -/
def execLaunch (ch : Channel) (s : State) : Out :=
  command ch 13 anyArg false s fun c =>
    if c.a0.extractLsb' 1 63 ≠ 0 || c.a1.toNat % 32 ≠ 0 || !aspaceOk c.a2 || !rangeReaches s c.a1.toNat 32 then (refuse (-2), s)
    else
      let r := parseLaunch (s.mem.readBytes c.a1.toNat 32)
      if !r.partOk s then (refuse (-2), s)
      else if r.queueFull s then (refuse (-4), s)
      else if !r.sound then (refuse (-2), s)
      else if r.tableFull s then (refuse (-4), s)
      else
        let a := accept s r (c.a0.getLsbD 0) c.a2
        ({ value0 := BitVec.ofNat 64 a.1 }, a.2)

/-! ### The debugger (R445, R464) -/

/-- DBG with ARG0 = 0, and with an ARG0 that names no form. -/
def execDbgAttach (ch : Channel) (s : State) : Out :=
  command ch 9 (fun a => a == 0 || 4 < a.toNat) false s fun c =>
    if c.a0 ≠ 0 || !partArg c.a1 then (refuse (-2), s)
    else if !(s.partNo c.a1).valid then (refuse (-3), s)
    else ({}, s.setPart c.a1.toNat { s.partNo c.a1 with debugger := true })

/-- DBG with ARG0 = 1. -/
def execDbgDetach (ch : Channel) (s : State) : Out :=
  command ch 9 (fun a => a == 1) false s fun c =>
    if !partArg c.a1 then (refuse (-2), s)
    else ({}, s.setPart c.a1.toNat { s.partNo c.a1 with debugger := false })

/-- The halted thread of a slot. -/
def haltedAt (s : State) (slot : BitVec 64) : Option Thread :=
  match s.thread? slot.toNat with
  | some t => if t.run = .halted then some t else none
  | none => none

/-- A command on a halted slot: −2 for a number that names no slot, −3 where no halted thread stands. -/
def onHalted (s : State) (slot : BitVec 64) (f : Thread → Answer × State) : Answer × State :=
  if Config.facets * Config.slotsPerFacet ≤ slot.toNat then (refuse (-2), s)
  else match haltedAt s slot with
    | none => (refuse (-3), s)
    | some t => f t

/-- DBG with ARG0 = 2: the effect of ERET, without the wait (R445). -/
def execDbgResume (ch : Channel) (s : State) : Out :=
  command ch 9 (fun a => a == 2) false s fun c => onHalted s c.a1 fun t =>
    match resume s t (s.mem.readBytes (s.frameBase t) 0x4000) false with
    | some (s', u) => ({}, s'.setThread u.awaitTiles)
    | none => (refuse (-3), s)

/-- An image address: 64 KiB aligned, and 512 KiB that reach something (R436, R447). -/
def imageArg (s : State) (a : BitVec 64) : Bool := a.toNat % 65536 == 0 && rangeReaches s a.toNat 0x80000

/-- DBG with ARG0 = 3: the image of a halted thread, its frame block as it stands. -/
def execDbgSave (ch : Channel) (s : State) : Out :=
  command ch 9 (fun a => a == 3) false s fun c =>
    if !imageArg s c.a2 then (refuse (-2), s)
    else onHalted s c.a1 fun t =>
      let m := writeImage s t c.a2.toNat
      ({}, { s with mem := m.writeBytes c.a2.toNat (s.mem.readBytes (s.frameBase t) 0x4000) })

/-- The status area of an image: what each MTS refuses, reserved bits, and the places that hold no register (R95, R151 to R153, R172, R359,
R447). -/
def imageStatusOk (m : Memory) (a : Nat) : Bool :=
  let st (c : Nat) : Nat := m.readN (a + 0x4000 + 8 * c) 8
  st 0 < 6 && st 1 < 4 && st 2 < 64 && st 3 < 2 && st 4 < 2 ^ 32
    && fld (st 6) 0 1 == 0 && fld (st 6) 3 4 == 0 && fld (st 6) 8 10 == 0 && fld (st 6) 56 8 == 0
    && st 7 < 256 && fld (st 7) 2 2 == 0 && fld (st 7) 6 1 == 0 && fld (st 7) 0 2 ≤ fld (st 7) 4 2
    && 1 ≤ st 8 && st 8 ≤ 16 && aspaceOk (imageAspace m a) && st 10 == 0 && st 11 == 0 && st 12 == 0
    && st 13 < 64 && st 14 ≤ 8192 && st 15 < 1024 && fld (st 15) 6 2 == 0

/-- A bound byte of the bookkeeping has no bit but its number and the flag. -/
def boundByteOk (w v : Nat) : Bool := v < 2 ^ w || (2 ^ 7 ≤ v && v < 2 ^ 7 + 2 ^ w)

/-- The bookkeeping block of an image, with its stream descriptors and its chain buffer: reserved bytes and bits, counts within their depths
(R251, R288, R442, R448). -/
def imageBooksOk (m : Memory) (a : Nat) : Bool :=
  let bk := a + 0x4180
  let split : BitVec 2 := .ofNat 2 (fld (m.readN (a + 0x4078) 8) 8 2)
  let ch := m.readN (bk + 0x78) 8
  let entry (i : Nat) : List (BitVec 8) := m.readBytes (a + 0x5200 + 128 * i) 128
  ((List.range 4).all fun p => m.readN (bk + 16 + 5 * p) 1 == 0) && ((List.range 16).all fun k => m.readN (bk + 16 + k) 1 ≤ 32)
    && ((List.range 8).all fun i => m.readN (bk + 0x20 + i) 1 ≤ qDepth i && boundByteOk 5 (m.readN (bk + 0x28 + i) 1)
      && boundByteOk 6 (m.readN (bk + 0x30 + i) 1))
    && ((List.range 8).all fun i =>
      let w := m.readN (bk + 0x38 + 8 * i) 8
      fld w 54 1 == 0 && fld w 56 8 == 0 && (!bitAt w 55 || streamDescOk (m.readBytes (a + 0x4500 + 96 * i) 96)))
    && fld ch 1 7 == 0 && fld ch 13 51 == 0 && fld ch 8 5 ≤ 16
    && ((List.range (fld ch 8 5)).all fun i => entryOk (entry i) && (readEntry (entry i)).isSome)
    && m.readN (bk + 0x80) 8 < 2 ^ 12 && m.readN (bk + 0x88) 8 < 2 ^ 48 && fld (m.readN (bk + 0x88) 8) 32 8 ≤ 2
    && ((List.range 64).all fun v => m.readN (bk + 0x90 + 2 * v) 2 ≤ rlenOf split)
    && (m.readBytes (bk + 0x110) 112).all (· == 0)

/-- An image that can be restored: nothing of it breaks its limits on its own (R440 to R442, R447, R448, R463; log entry 24). -/
def imageSound (s : State) (a : Nat) : Bool :=
  frameOk (s.mem.readBytes a 0x4000) && imageStatusOk s.mem a && imageBooksOk s.mem a

/-- The halted thread that an image gives, and memory with its frame block and unit window. What it holds of the frame's entries is linked to the
image's own blocks and queue registers (R248, R345). -/
def restoreHalted (s : State) (t : Thread) (a : Nat) : Option State :=
  match readImage s.mem a { t with held := [], tok := Vector.replicate 16 0, chStatus := 0, chFlags := 0 } with
  | none => none
  | some u =>
    let free := freeTiles s t.facet ++ t.tiles.filter (· < 2)
    (bindHandles u free).map fun v =>
      let v := { v with held := frameEntries v (s.mem.readBytes a 0x4000) false }
      let w := s.mem.readBytes (a + 0x1C000) (2 ^ (s.partOf t).uwlog.toNat)
      let m := (s.mem.writeBytes (s.frameBase t) (s.mem.readBytes a 0x4000)).zero (unitBase t.slot) 65536
      let f := s.facet t.facet
      let s : State := { s with mem := m.writeBytes (unitBase t.slot) w }
      (s.setFacet t.facet { f with waiters := f.waiters.filter fun x => x.slot != t.slot }).setThread v

/-- DBG with ARG0 = 4: an image that breaks its limits, such as an ASPACE that MTS would refuse, gives −2; a slot without a halted thread −3; too
few tiles −4 (R463, R464). -/
def execDbgRestore (ch : Channel) (s : State) : Out :=
  command ch 9 (fun a => a == 4) false s fun c =>
    if !imageArg s c.a2 || !imageSound s c.a2.toNat then (refuse (-2), s)
    else onHalted s c.a1 fun t =>
      match restoreHalted s t c.a2.toNat with
      | some s' => ({}, s')
      | none => (refuse (-4), s)

/-! ### SPDM (R469, R470) -/

/-- Answer an SPDM request on the wire it came by. -/
def spdm (w : SpdmPort) (k : SpdmKind) (s : State) : Out :=
  .next { s with spdm := s.spdm ++ [⟨w, k, s.ctr⟩], ctr := s.ctr + 1 }

/-- GET_VERSION: SPDM 1.3 (R469). -/
def execGetVersion (w : SpdmPort) (s : State) : Out := spdm w (.version 0x13) s
/-- GET_CAPABILITIES (R469). -/
def execGetCapabilities (w : SpdmPort) (s : State) : Out := spdm w .capabilities s
/-- NEGOTIATE_ALGORITHMS: the identity key is an extended asymmetric algorithm (R469). -/
def execNegotiateAlgorithms (w : SpdmPort) (s : State) : Out := spdm w (.algorithms .hssLmsSha256) s
/-- GET_DIGESTS (R469). -/
def execGetDigests (w : SpdmPort) (s : State) : Out := spdm w .digests s
/-- GET_CERTIFICATE (R469). -/
def execGetCertificate (w : SpdmPort) (s : State) : Out := spdm w (.certificate .hssLmsSha256) s
/-- CHALLENGE (R469). -/
def execChallenge (w : SpdmPort) (s : State) : Out := spdm w (.challengeAuth .hssLmsSha256) s
/-- GET_MEASUREMENTS: the firmware digest, the rollback counter and the identification word (R469). -/
def execGetMeasurements (w : SpdmPort) (s : State) : Out :=
  spdm w (.measurements (Config.firmwareDigest s.firmware) s.rollback Config.idWord) s
/-- SECURED_SESSION: a session stands on the wire (R469, R470). -/
def execSecuredSession (w : SpdmPort) (s : State) : Out :=
  match w with
  | .doe => spdm w .session { s with doeSession := true }
  | .management => spdm w .session { s with mgmtSession := true }

end
end Sys2Proof.Machine
end

