-- ==== Sys2Proof/Machine/PushCompact.lean ====
section
/-! DEFINITION. The compact vector forms, which push the VV instruction they stand for: each is pushed onto the thread's vector queue with
what it captures (spec/06_control_threads.md R163), and has its effect when the entry starts: its arm of `effect` (spec/03_encoding.md R73).
-/

namespace Sys2Proof.Machine
open Sys2Proof

noncomputable section

/-- CV_VADD_I32 (R73). -/
def execCvVaddI32 (b : BitVec 5) (d : BitVec 5) (s : State) : Out := pushQ (.cvVaddI32 b d) s
/-- CV_VSUB_I32 (R73). -/
def execCvVsubI32 (b : BitVec 5) (d : BitVec 5) (s : State) : Out := pushQ (.cvVsubI32 b d) s
/-- CV_VMUL_I32 (R73). -/
def execCvVmulI32 (b : BitVec 5) (d : BitVec 5) (s : State) : Out := pushQ (.cvVmulI32 b d) s
/-- CV_VMACC_I32 (R73). -/
def execCvVmaccI32 (b : BitVec 5) (d : BitVec 5) (s : State) : Out := pushQ (.cvVmaccI32 b d) s
/-- CV_VMAX_I32 (R73). -/
def execCvVmaxI32 (b : BitVec 5) (d : BitVec 5) (s : State) : Out := pushQ (.cvVmaxI32 b d) s
/-- CV_VXOR_I32 (R73). -/
def execCvVxorI32 (b : BitVec 5) (d : BitVec 5) (s : State) : Out := pushQ (.cvVxorI32 b d) s
/-- CV_VFADD_F32 (R73). -/
def execCvVfaddF32 (b : BitVec 5) (d : BitVec 5) (s : State) : Out := pushQ (.cvVfaddF32 b d) s
/-- CV_VFMUL_F32 (R73). -/
def execCvVfmulF32 (b : BitVec 5) (d : BitVec 5) (s : State) : Out := pushQ (.cvVfmulF32 b d) s
/-- CV_VFMA_F32 (R73). -/
def execCvVfmaF32 (b : BitVec 5) (d : BitVec 5) (s : State) : Out := pushQ (.cvVfmaF32 b d) s
/-- CV_VFMAX_F32 (R73). -/
def execCvVfmaxF32 (b : BitVec 5) (d : BitVec 5) (s : State) : Out := pushQ (.cvVfmaxF32 b d) s
/-- CV_VFADD_BF16 (R73). -/
def execCvVfaddBf16 (b : BitVec 5) (d : BitVec 5) (s : State) : Out := pushQ (.cvVfaddBf16 b d) s
/-- CV_VFMUL_BF16 (R73). -/
def execCvVfmulBf16 (b : BitVec 5) (d : BitVec 5) (s : State) : Out := pushQ (.cvVfmulBf16 b d) s
/-- CV_VFMA_BF16 (R73). -/
def execCvVfmaBf16 (b : BitVec 5) (d : BitVec 5) (s : State) : Out := pushQ (.cvVfmaBf16 b d) s
/-- CV_VFMAX_BF16 (R73). -/
def execCvVfmaxBf16 (b : BitVec 5) (d : BitVec 5) (s : State) : Out := pushQ (.cvVfmaxBf16 b d) s

end
end Sys2Proof.Machine
end

