-- ==== Sys2Proof/Machine/PushEngine.lean ====
section
/-! DEFINITION. Tile moves, tokens, fences, collectives and messages: each is pushed onto the thread's vector queue with what it captures
(spec/06_control_threads.md R163), and has its effect when the entry starts: its arm of `effect` (spec/11_scratchpads_and_vector_memory.md,
spec/16_atomics_and_synchronisation.md, spec/19_fabric_collectives_and_time.md). -/

namespace Sys2Proof.Machine
open Sys2Proof

noncomputable section

/-- TMOV (R282). -/
def execTmov (o : XOps) (s : State) : Out := pushQ (.tmov o) s
/-- TOKP (R292). -/
def execTokp (o : XOps) (s : State) : Out := pushQ (.tokp o) s
/-- TOKW (R292). -/
def execTokw (o : XOps) (s : State) : Out := pushQ (.tokw o) s
/-- VFENCE (R383). -/
def execVfence (o : XOps) (s : State) : Out := pushQ (.vfence o) s
/-- VFENCE_D (R383). -/
def execVfenceD (o : XOps) (s : State) : Out := pushQ (.vfenceD o) s
/-- VCOLL (R423). -/
def execVcoll (o : KOps) (s : State) : Out := pushQ (.vcoll o) s
/-- VSEND (R430). -/
def execVsend (o : MOps) (s : State) : Out := pushQ (.vsend o) s
/-- VRECV (R430). -/
def execVrecv (o : MOps) (s : State) : Out := pushQ (.vrecv o) s

end
end Sys2Proof.Machine
end

