-- ==== Sys2Proof/Machine/PushLattice.lean ====
section
/-! DEFINITION. The lattice and tile-register instructions: each is pushed onto the thread's vector queue with what it captures
(spec/06_control_threads.md R163), and has its effect when the entry starts: its arm of `effect` (spec/09_lattice_and_accumulators.md). -/

namespace Sys2Proof.Machine
open Sys2Proof

noncomputable section

/-- AALLOC (R228). -/
def execAalloc (o : XOps) (s : State) : Out := pushQ (.aalloc o) s
/-- AALLOC_WAIT (R228). -/
def execAallocWait (o : XOps) (s : State) : Out := pushQ (.aallocWait o) s
/-- AFREE (R229). -/
def execAfree (o : XOps) (s : State) : Out := pushQ (.afree o) s
/-- ACLR (R230). -/
def execAclr (o : XOps) (s : State) : Out := pushQ (.aclr o) s
/-- LDWS (R232). -/
def execLdws (o : XOps) (s : State) : Out := pushQ (.ldws o) s
/-- SWPL (R233). -/
def execSwpl (o : XOps) (s : State) : Out := pushQ (.swpl o) s
/-- MSTREAM (R235). -/
def execMstream (o : XOps) (s : State) : Out := pushQ (.mstream o) s
/-- MOPA (R236). -/
def execMopa (o : XOps) (s : State) : Out := pushQ (.mopa o) s
/-- MOPS (R236). -/
def execMops (o : XOps) (s : State) : Out := pushQ (.mops o) s
/-- AXTR (R239). -/
def execAxtr (o : XOps) (s : State) : Out := pushQ (.axtr o) s
/-- AXTC (R239). -/
def execAxtc (o : XOps) (s : State) : Out := pushQ (.axtc o) s
/-- ASAVE (R241). -/
def execAsave (o : XOps) (s : State) : Out := pushQ (.asave o) s
/-- ALOAD (R241). -/
def execAload (o : XOps) (s : State) : Out := pushQ (.aload o) s
/-- AADDI (R241). -/
def execAaddi (o : XOps) (s : State) : Out := pushQ (.aaddi o) s
/-- TROW (R244). -/
def execTrow (o : XOps) (s : State) : Out := pushQ (.trow o) s
/-- TCOL (R244). -/
def execTcol (o : XOps) (s : State) : Out := pushQ (.tcol o) s
/-- TLD (R245). -/
def execTld (o : XOps) (s : State) : Out := pushQ (.tld o) s
/-- TST (R245). -/
def execTst (o : XOps) (s : State) : Out := pushQ (.tst o) s

end
end Sys2Proof.Machine
end

