-- ==== Sys2Proof/Machine/PushMemory.lean ====
section
/-! DEFINITION. The vector memory, plural and vector atomic instructions: each is pushed onto the thread's vector queue with what it
captures (spec/06_control_threads.md R163), and has its effect when the entry starts: its arm of `effect`
(spec/11_scratchpads_and_vector_memory.md, spec/12_banks_and_plural_addressing.md, spec/16_atomics_and_synchronisation.md). -/

namespace Sys2Proof.Machine
open Sys2Proof

noncomputable section

/-- VLD (R274). -/
def execVld (o : MOps) (s : State) : Out := pushQ (.vld o) s
/-- VLDS (R274). -/
def execVlds (o : MOps) (s : State) : Out := pushQ (.vlds o) s
/-- VLDX (R274). -/
def execVldx (o : MOps) (s : State) : Out := pushQ (.vldx o) s
/-- VLDSEG (R274). -/
def execVldseg (o : MOps) (s : State) : Out := pushQ (.vldseg o) s
/-- VLDFF (R277). -/
def execVldff (o : MOps) (s : State) : Out := pushQ (.vldff o) s
/-- CBLD (R278). -/
def execCbld (o : MOps) (s : State) : Out := pushQ (.cbld o) s
/-- VFILL (R185). -/
def execVfill (o : MOps) (s : State) : Out := pushQ (.vfill o) s
/-- VST (R274). -/
def execVst (o : MOps) (s : State) : Out := pushQ (.vst o) s
/-- VSTS (R274). -/
def execVsts (o : MOps) (s : State) : Out := pushQ (.vsts o) s
/-- VSTX (R275). -/
def execVstx (o : MOps) (s : State) : Out := pushQ (.vstx o) s
/-- VSTSEG (R274). -/
def execVstseg (o : MOps) (s : State) : Out := pushQ (.vstseg o) s
/-- VSPILL (R184). -/
def execVspill (o : MOps) (s : State) : Out := pushQ (.vspill o) s
/-- LDP_SUM (R306). -/
def execLdpSum (o : MOps) (s : State) : Out := pushQ (.ldpSum o) s
/-- LDP_MAX (R306). -/
def execLdpMax (o : MOps) (s : State) : Out := pushQ (.ldpMax o) s
/-- LDP_MIN (R306). -/
def execLdpMin (o : MOps) (s : State) : Out := pushQ (.ldpMin o) s
/-- LDP_MAXSUM (R311). -/
def execLdpMaxsum (o : MOps) (s : State) : Out := pushQ (.ldpMaxsum o) s
/-- LDP_AND (R306). -/
def execLdpAnd (o : MOps) (s : State) : Out := pushQ (.ldpAnd o) s
/-- LDP_OR (R306). -/
def execLdpOr (o : MOps) (s : State) : Out := pushQ (.ldpOr o) s
/-- LDP_XOR (R306). -/
def execLdpXor (o : MOps) (s : State) : Out := pushQ (.ldpXor o) s
/-- LDP_FIRST (R307). -/
def execLdpFirst (o : MOps) (s : State) : Out := pushQ (.ldpFirst o) s
/-- STP (R303). -/
def execStp (o : MOps) (s : State) : Out := pushQ (.stp o) s
/-- CHRUN (R319). -/
def execChrun (o : MOps) (s : State) : Out := pushQ (.chrun o) s
/-- VAMO_ADD (R378). -/
def execVamoAdd (o : MOps) (s : State) : Out := pushQ (.vamoAdd o) s
/-- VAMO_MIN (R378). -/
def execVamoMin (o : MOps) (s : State) : Out := pushQ (.vamoMin o) s
/-- VAMO_MAX (R378). -/
def execVamoMax (o : MOps) (s : State) : Out := pushQ (.vamoMax o) s
/-- VAMO_AND (R378). -/
def execVamoAnd (o : MOps) (s : State) : Out := pushQ (.vamoAnd o) s
/-- VAMO_OR (R378). -/
def execVamoOr (o : MOps) (s : State) : Out := pushQ (.vamoOr o) s
/-- VAMO_XOR (R378). -/
def execVamoXor (o : MOps) (s : State) : Out := pushQ (.vamoXor o) s
/-- VAMO_SWAP (R378). -/
def execVamoSwap (o : MOps) (s : State) : Out := pushQ (.vamoSwap o) s
/-- VAMO_CAS (R378). -/
def execVamoCas (o : MOps) (s : State) : Out := pushQ (.vamoCas o) s
/-- VAMOO_ADD (R379). -/
def execVamooAdd (o : MOps) (s : State) : Out := pushQ (.vamooAdd o) s
/-- VAMOO_MIN (R379). -/
def execVamooMin (o : MOps) (s : State) : Out := pushQ (.vamooMin o) s
/-- VAMOO_MAX (R379). -/
def execVamooMax (o : MOps) (s : State) : Out := pushQ (.vamooMax o) s
/-- VAMOO_AND (R379). -/
def execVamooAnd (o : MOps) (s : State) : Out := pushQ (.vamooAnd o) s
/-- VAMOO_OR (R379). -/
def execVamooOr (o : MOps) (s : State) : Out := pushQ (.vamooOr o) s
/-- VAMOO_XOR (R379). -/
def execVamooXor (o : MOps) (s : State) : Out := pushQ (.vamooXor o) s
/-- VAMOO_SWAP (R379). -/
def execVamooSwap (o : MOps) (s : State) : Out := pushQ (.vamooSwap o) s
/-- VAMOO_CAS (R379). -/
def execVamooCas (o : MOps) (s : State) : Out := pushQ (.vamooCas o) s

end
end Sys2Proof.Machine
end

