-- ==== Sys2Proof/Machine/PushVector.lean ====
section
/-! DEFINITION. The vector, mask, permutation, reduction and chain instructions: each is pushed onto the thread's vector queue with what it
captures (spec/06_control_threads.md R163), and has its effect when the entry starts: its arm of `effect`
(spec/08_lanes_and_vector_operations.md, spec/07_vector_register_storage.md). -/

namespace Sys2Proof.Machine
open Sys2Proof

noncomputable section

/-- VADD_VV (R198). -/
def execVaddVv (o : VOps) (s : State) : Out := pushQ (.vaddVv o) s
/-- VADD_VG (R198). -/
def execVaddVg (o : VOps) (s : State) : Out := pushQ (.vaddVg o) s
/-- VADD_VI (R198). -/
def execVaddVi (o : VOps) (s : State) : Out := pushQ (.vaddVi o) s
/-- VSUB_VV (R198). -/
def execVsubVv (o : VOps) (s : State) : Out := pushQ (.vsubVv o) s
/-- VSUB_VG (R198). -/
def execVsubVg (o : VOps) (s : State) : Out := pushQ (.vsubVg o) s
/-- VRSUB_VG (R198). -/
def execVrsubVg (o : VOps) (s : State) : Out := pushQ (.vrsubVg o) s
/-- VRSUB_VI (R198). -/
def execVrsubVi (o : VOps) (s : State) : Out := pushQ (.vrsubVi o) s
/-- VMUL_VV (R198). -/
def execVmulVv (o : VOps) (s : State) : Out := pushQ (.vmulVv o) s
/-- VMUL_VG (R198). -/
def execVmulVg (o : VOps) (s : State) : Out := pushQ (.vmulVg o) s
/-- VMULH_VV (R198). -/
def execVmulhVv (o : VOps) (s : State) : Out := pushQ (.vmulhVv o) s
/-- VMULH_VG (R198). -/
def execVmulhVg (o : VOps) (s : State) : Out := pushQ (.vmulhVg o) s
/-- VMACC_VV (R198). -/
def execVmaccVv (o : VOps) (s : State) : Out := pushQ (.vmaccVv o) s
/-- VMACC_VG (R198). -/
def execVmaccVg (o : VOps) (s : State) : Out := pushQ (.vmaccVg o) s
/-- VNMSAC_VV (R198). -/
def execVnmsacVv (o : VOps) (s : State) : Out := pushQ (.vnmsacVv o) s
/-- VNMSAC_VG (R198). -/
def execVnmsacVg (o : VOps) (s : State) : Out := pushQ (.vnmsacVg o) s
/-- VWADD_VV (R199). -/
def execVwaddVv (o : VOps) (s : State) : Out := pushQ (.vwaddVv o) s
/-- VWADD_VG (R199). -/
def execVwaddVg (o : VOps) (s : State) : Out := pushQ (.vwaddVg o) s
/-- VWMUL_VV (R199). -/
def execVwmulVv (o : VOps) (s : State) : Out := pushQ (.vwmulVv o) s
/-- VWMUL_VG (R199). -/
def execVwmulVg (o : VOps) (s : State) : Out := pushQ (.vwmulVg o) s
/-- VWMACC_VV (R199). -/
def execVwmaccVv (o : VOps) (s : State) : Out := pushQ (.vwmaccVv o) s
/-- VWMACC_VG (R199). -/
def execVwmaccVg (o : VOps) (s : State) : Out := pushQ (.vwmaccVg o) s
/-- VNSHR_VV (R200). -/
def execVnshrVv (o : VOps) (s : State) : Out := pushQ (.vnshrVv o) s
/-- VNSHR_VG (R200). -/
def execVnshrVg (o : VOps) (s : State) : Out := pushQ (.vnshrVg o) s
/-- VNSHR_VI (R200). -/
def execVnshrVi (o : VOps) (s : State) : Out := pushQ (.vnshrVi o) s
/-- VSADD_VV (R198). -/
def execVsaddVv (o : VOps) (s : State) : Out := pushQ (.vsaddVv o) s
/-- VSADD_VG (R198). -/
def execVsaddVg (o : VOps) (s : State) : Out := pushQ (.vsaddVg o) s
/-- VSADD_VI (R198). -/
def execVsaddVi (o : VOps) (s : State) : Out := pushQ (.vsaddVi o) s
/-- VSSUB_VV (R198). -/
def execVssubVv (o : VOps) (s : State) : Out := pushQ (.vssubVv o) s
/-- VSSUB_VG (R198). -/
def execVssubVg (o : VOps) (s : State) : Out := pushQ (.vssubVg o) s
/-- VAVG_VV (R198). -/
def execVavgVv (o : VOps) (s : State) : Out := pushQ (.vavgVv o) s
/-- VAVG_VG (R198). -/
def execVavgVg (o : VOps) (s : State) : Out := pushQ (.vavgVg o) s
/-- VMIN_VV (R198). -/
def execVminVv (o : VOps) (s : State) : Out := pushQ (.vminVv o) s
/-- VMIN_VG (R198). -/
def execVminVg (o : VOps) (s : State) : Out := pushQ (.vminVg o) s
/-- VMAX_VV (R198). -/
def execVmaxVv (o : VOps) (s : State) : Out := pushQ (.vmaxVv o) s
/-- VMAX_VG (R198). -/
def execVmaxVg (o : VOps) (s : State) : Out := pushQ (.vmaxVg o) s
/-- VAND_VV (R198). -/
def execVandVv (o : VOps) (s : State) : Out := pushQ (.vandVv o) s
/-- VAND_VG (R198). -/
def execVandVg (o : VOps) (s : State) : Out := pushQ (.vandVg o) s
/-- VAND_VI (R198). -/
def execVandVi (o : VOps) (s : State) : Out := pushQ (.vandVi o) s
/-- VOR_VV (R198). -/
def execVorVv (o : VOps) (s : State) : Out := pushQ (.vorVv o) s
/-- VOR_VG (R198). -/
def execVorVg (o : VOps) (s : State) : Out := pushQ (.vorVg o) s
/-- VOR_VI (R198). -/
def execVorVi (o : VOps) (s : State) : Out := pushQ (.vorVi o) s
/-- VXOR_VV (R198). -/
def execVxorVv (o : VOps) (s : State) : Out := pushQ (.vxorVv o) s
/-- VXOR_VG (R198). -/
def execVxorVg (o : VOps) (s : State) : Out := pushQ (.vxorVg o) s
/-- VXOR_VI (R198). -/
def execVxorVi (o : VOps) (s : State) : Out := pushQ (.vxorVi o) s
/-- VSHL_VV (R198). -/
def execVshlVv (o : VOps) (s : State) : Out := pushQ (.vshlVv o) s
/-- VSHL_VG (R198). -/
def execVshlVg (o : VOps) (s : State) : Out := pushQ (.vshlVg o) s
/-- VSHL_VI (R198). -/
def execVshlVi (o : VOps) (s : State) : Out := pushQ (.vshlVi o) s
/-- VSHR_VV (R198). -/
def execVshrVv (o : VOps) (s : State) : Out := pushQ (.vshrVv o) s
/-- VSHR_VG (R198). -/
def execVshrVg (o : VOps) (s : State) : Out := pushQ (.vshrVg o) s
/-- VSHR_VI (R198). -/
def execVshrVi (o : VOps) (s : State) : Out := pushQ (.vshrVi o) s
/-- VSAR_VV (R198). -/
def execVsarVv (o : VOps) (s : State) : Out := pushQ (.vsarVv o) s
/-- VSAR_VG (R198). -/
def execVsarVg (o : VOps) (s : State) : Out := pushQ (.vsarVg o) s
/-- VSAR_VI (R198). -/
def execVsarVi (o : VOps) (s : State) : Out := pushQ (.vsarVi o) s
/-- VMERGE_VV (R201). -/
def execVmergeVv (o : VOps) (s : State) : Out := pushQ (.vmergeVv o) s
/-- VMERGE_VG (R201). -/
def execVmergeVg (o : VOps) (s : State) : Out := pushQ (.vmergeVg o) s
/-- VMERGE_VI (R201). -/
def execVmergeVi (o : VOps) (s : State) : Out := pushQ (.vmergeVi o) s
/-- VMV_VV (R198). -/
def execVmvVv (o : VOps) (s : State) : Out := pushQ (.vmvVv o) s
/-- VMV_VG (R198). -/
def execVmvVg (o : VOps) (s : State) : Out := pushQ (.vmvVg o) s
/-- VMV_VI (R198). -/
def execVmvVi (o : VOps) (s : State) : Out := pushQ (.vmvVi o) s
/-- VCMP_EQ_VV (R202). -/
def execVcmpEqVv (o : VOps) (s : State) : Out := pushQ (.vcmpEqVv o) s
/-- VCMP_EQ_VG (R202). -/
def execVcmpEqVg (o : VOps) (s : State) : Out := pushQ (.vcmpEqVg o) s
/-- VCMP_EQ_VI (R202). -/
def execVcmpEqVi (o : VOps) (s : State) : Out := pushQ (.vcmpEqVi o) s
/-- VCMP_NE_VV (R202). -/
def execVcmpNeVv (o : VOps) (s : State) : Out := pushQ (.vcmpNeVv o) s
/-- VCMP_NE_VG (R202). -/
def execVcmpNeVg (o : VOps) (s : State) : Out := pushQ (.vcmpNeVg o) s
/-- VCMP_NE_VI (R202). -/
def execVcmpNeVi (o : VOps) (s : State) : Out := pushQ (.vcmpNeVi o) s
/-- VCMP_LT_VV (R202). -/
def execVcmpLtVv (o : VOps) (s : State) : Out := pushQ (.vcmpLtVv o) s
/-- VCMP_LT_VG (R202). -/
def execVcmpLtVg (o : VOps) (s : State) : Out := pushQ (.vcmpLtVg o) s
/-- VCMP_LT_VI (R202). -/
def execVcmpLtVi (o : VOps) (s : State) : Out := pushQ (.vcmpLtVi o) s
/-- VCMP_LE_VV (R202). -/
def execVcmpLeVv (o : VOps) (s : State) : Out := pushQ (.vcmpLeVv o) s
/-- VCMP_LE_VG (R202). -/
def execVcmpLeVg (o : VOps) (s : State) : Out := pushQ (.vcmpLeVg o) s
/-- VCMP_LE_VI (R202). -/
def execVcmpLeVi (o : VOps) (s : State) : Out := pushQ (.vcmpLeVi o) s
/-- VCMP_GT_VV (R202). -/
def execVcmpGtVv (o : VOps) (s : State) : Out := pushQ (.vcmpGtVv o) s
/-- VCMP_GT_VG (R202). -/
def execVcmpGtVg (o : VOps) (s : State) : Out := pushQ (.vcmpGtVg o) s
/-- VCMP_GT_VI (R202). -/
def execVcmpGtVi (o : VOps) (s : State) : Out := pushQ (.vcmpGtVi o) s
/-- VCMP_GE_VV (R202). -/
def execVcmpGeVv (o : VOps) (s : State) : Out := pushQ (.vcmpGeVv o) s
/-- VCMP_GE_VG (R202). -/
def execVcmpGeVg (o : VOps) (s : State) : Out := pushQ (.vcmpGeVg o) s
/-- VCMP_GE_VI (R202). -/
def execVcmpGeVi (o : VOps) (s : State) : Out := pushQ (.vcmpGeVi o) s
/-- VFADD_VV (R203). -/
def execVfaddVv (o : VOps) (s : State) : Out := pushQ (.vfaddVv o) s
/-- VFADD_VG (R203). -/
def execVfaddVg (o : VOps) (s : State) : Out := pushQ (.vfaddVg o) s
/-- VFSUB_VV (R203). -/
def execVfsubVv (o : VOps) (s : State) : Out := pushQ (.vfsubVv o) s
/-- VFSUB_VG (R203). -/
def execVfsubVg (o : VOps) (s : State) : Out := pushQ (.vfsubVg o) s
/-- VFMUL_VV (R203). -/
def execVfmulVv (o : VOps) (s : State) : Out := pushQ (.vfmulVv o) s
/-- VFMUL_VG (R203). -/
def execVfmulVg (o : VOps) (s : State) : Out := pushQ (.vfmulVg o) s
/-- VFMA_VV (R203). -/
def execVfmaVv (o : VOps) (s : State) : Out := pushQ (.vfmaVv o) s
/-- VFMA_VG (R203). -/
def execVfmaVg (o : VOps) (s : State) : Out := pushQ (.vfmaVg o) s
/-- VFNMA_VV (R203). -/
def execVfnmaVv (o : VOps) (s : State) : Out := pushQ (.vfnmaVv o) s
/-- VFNMA_VG (R203). -/
def execVfnmaVg (o : VOps) (s : State) : Out := pushQ (.vfnmaVg o) s
/-- VFDIV_VV (R203). -/
def execVfdivVv (o : VOps) (s : State) : Out := pushQ (.vfdivVv o) s
/-- VFDIV_VG (R203). -/
def execVfdivVg (o : VOps) (s : State) : Out := pushQ (.vfdivVg o) s
/-- VFSQRT (R203). -/
def execVfsqrt (o : VOps) (s : State) : Out := pushQ (.vfsqrt o) s
/-- VFMIN_VV (R203). -/
def execVfminVv (o : VOps) (s : State) : Out := pushQ (.vfminVv o) s
/-- VFMIN_VG (R203). -/
def execVfminVg (o : VOps) (s : State) : Out := pushQ (.vfminVg o) s
/-- VFMAX_VV (R203). -/
def execVfmaxVv (o : VOps) (s : State) : Out := pushQ (.vfmaxVv o) s
/-- VFMAX_VG (R203). -/
def execVfmaxVg (o : VOps) (s : State) : Out := pushQ (.vfmaxVg o) s
/-- VFCMP_EQ_VV (R203). -/
def execVfcmpEqVv (o : VOps) (s : State) : Out := pushQ (.vfcmpEqVv o) s
/-- VFCMP_EQ_VG (R203). -/
def execVfcmpEqVg (o : VOps) (s : State) : Out := pushQ (.vfcmpEqVg o) s
/-- VFCMP_NE_VV (R203). -/
def execVfcmpNeVv (o : VOps) (s : State) : Out := pushQ (.vfcmpNeVv o) s
/-- VFCMP_NE_VG (R203). -/
def execVfcmpNeVg (o : VOps) (s : State) : Out := pushQ (.vfcmpNeVg o) s
/-- VFCMP_LT_VV (R203). -/
def execVfcmpLtVv (o : VOps) (s : State) : Out := pushQ (.vfcmpLtVv o) s
/-- VFCMP_LT_VG (R203). -/
def execVfcmpLtVg (o : VOps) (s : State) : Out := pushQ (.vfcmpLtVg o) s
/-- VFCMP_LE_VV (R203). -/
def execVfcmpLeVv (o : VOps) (s : State) : Out := pushQ (.vfcmpLeVv o) s
/-- VFCMP_LE_VG (R203). -/
def execVfcmpLeVg (o : VOps) (s : State) : Out := pushQ (.vfcmpLeVg o) s
/-- VFCMP_GT_VV (R203). -/
def execVfcmpGtVv (o : VOps) (s : State) : Out := pushQ (.vfcmpGtVv o) s
/-- VFCMP_GT_VG (R203). -/
def execVfcmpGtVg (o : VOps) (s : State) : Out := pushQ (.vfcmpGtVg o) s
/-- VFCMP_GE_VV (R203). -/
def execVfcmpGeVv (o : VOps) (s : State) : Out := pushQ (.vfcmpGeVv o) s
/-- VFCMP_GE_VG (R203). -/
def execVfcmpGeVg (o : VOps) (s : State) : Out := pushQ (.vfcmpGeVg o) s
/-- VFCMP_UN_VV (R203). -/
def execVfcmpUnVv (o : VOps) (s : State) : Out := pushQ (.vfcmpUnVv o) s
/-- VFCMP_UN_VG (R203). -/
def execVfcmpUnVg (o : VOps) (s : State) : Out := pushQ (.vfcmpUnVg o) s
/-- MAND (R206). -/
def execMand (o : VOps) (s : State) : Out := pushQ (.mand o) s
/-- MOR (R206). -/
def execMor (o : VOps) (s : State) : Out := pushQ (.mor o) s
/-- MXOR (R206). -/
def execMxor (o : VOps) (s : State) : Out := pushQ (.mxor o) s
/-- MNOT (R206). -/
def execMnot (o : VOps) (s : State) : Out := pushQ (.mnot o) s
/-- MPOPC (R206). -/
def execMpopc (o : VOps) (s : State) : Out := pushQ (.mpopc o) s
/-- MFFS (R206). -/
def execMffs (o : VOps) (s : State) : Out := pushQ (.mffs o) s
/-- MSET (R207). -/
def execMset (o : VOps) (s : State) : Out := pushQ (.mset o) s
/-- VRECONF (R181). -/
def execVreconf (o : VOps) (s : State) : Out := pushQ (.vreconf o) s
/-- VSLIDEU (R209). -/
def execVslideu (o : VOps) (s : State) : Out := pushQ (.vslideu o) s
/-- VSLIDED (R209). -/
def execVslided (o : VOps) (s : State) : Out := pushQ (.vslided o) s
/-- VGATHER (R210). -/
def execVgather (o : VOps) (s : State) : Out := pushQ (.vgather o) s
/-- VCOMPRESS (R211). -/
def execVcompress (o : VOps) (s : State) : Out := pushQ (.vcompress o) s
/-- VIOTA (R212). -/
def execViota (o : VOps) (s : State) : Out := pushQ (.viota o) s
/-- VEXT (R213). -/
def execVext (o : VOps) (s : State) : Out := pushQ (.vext o) s
/-- VINS (R213). -/
def execVins (o : VOps) (s : State) : Out := pushQ (.vins o) s
/-- VREDSUM (R214). -/
def execVredsum (o : VOps) (s : State) : Out := pushQ (.vredsum o) s
/-- VREDMAX (R214). -/
def execVredmax (o : VOps) (s : State) : Out := pushQ (.vredmax o) s
/-- VREDMIN (R214). -/
def execVredmin (o : VOps) (s : State) : Out := pushQ (.vredmin o) s
/-- VFREDSUM (R215). -/
def execVfredsum (o : VOps) (s : State) : Out := pushQ (.vfredsum o) s
/-- VFREDMAX (R214). -/
def execVfredmax (o : VOps) (s : State) : Out := pushQ (.vfredmax o) s
/-- VFREDMIN (R214). -/
def execVfredmin (o : VOps) (s : State) : Out := pushQ (.vfredmin o) s
/-- VFREDMS (R216). -/
def execVfredms (o : VOps) (s : State) : Out := pushQ (.vfredms o) s
/-- VFCVT (R204). -/
def execVfcvt (o : VOps) (s : State) : Out := pushQ (.vfcvt o) s
/-- VFCVT_EF (R205). -/
def execVfcvtEf (o : VOps) (s : State) : Out := pushQ (.vfcvtEf o) s
/-- VREC (R219). -/
def execVrec (o : VOps) (s : State) : Out := pushQ (.vrec o) s
/-- VENDREC (R220). -/
def execVendrec (o : VOps) (s : State) : Out := pushQ (.vendrec o) s
/-- VREPLAY (R221). -/
def execVreplay (o : VOps) (s : State) : Out := pushQ (.vreplay o) s

end
end Sys2Proof.Machine
end

