-- ==== Sys2Proof/Machine/Scalar.lean ====
section
/-! DEFINITION. The integer instructions on general registers, their immediate and compressed forms, and the hints
(spec/05_general_registers.md R120 to R123, R143; spec/03_encoding.md R72, R75). -/

namespace Sys2Proof.Machine
open Sys2Proof

noncomputable section

/-- ADD (R120). -/
def execAdd (b a d : Reg) (s : State) : Out :=
  compute (.add b a d) [a, b] d s fun t => let a := t.src a; let b := t.src b; a + b

/-- SUB (R120). -/
def execSub (b a d : Reg) (s : State) : Out :=
  compute (.sub b a d) [a, b] d s fun t => let a := t.src a; let b := t.src b; a - b

/-- MUL (R120). -/
def execMul (b a d : Reg) (s : State) : Out :=
  compute (.mul b a d) [a, b] d s fun t => let a := t.src a; let b := t.src b; a * b

/-- MULH (R120). -/
def execMulh (b a d : Reg) (s : State) : Out :=
  compute (.mulh b a d) [a, b] d s fun t => let a := t.src a; let b := t.src b; mulHigh a b

/-- MULHW (R120). -/
def execMulhw (b a d : Reg) (s : State) : Out :=
  compute (.mulhw b a d) [a, b] d s fun t => let a := t.src a; let b := t.src b; mulHighU a b

/-- DIV (R121). -/
def execDiv (b a d : Reg) (s : State) : Out :=
  compute (.div b a d) [a, b] d s fun t => let a := t.src a; let b := t.src b; divS a b

/-- DIVW (R121). -/
def execDivw (b a d : Reg) (s : State) : Out :=
  compute (.divw b a d) [a, b] d s fun t => let a := t.src a; let b := t.src b; divU a b

/-- REM (R121). -/
def execRem (b a d : Reg) (s : State) : Out :=
  compute (.rem b a d) [a, b] d s fun t => let a := t.src a; let b := t.src b; remS a b

/-- REMW (R121). -/
def execRemw (b a d : Reg) (s : State) : Out :=
  compute (.remw b a d) [a, b] d s fun t => let a := t.src a; let b := t.src b; remU a b

/-- AND (R120). -/
def execAnd (b a d : Reg) (s : State) : Out :=
  compute (.and b a d) [a, b] d s fun t => let a := t.src a; let b := t.src b; a &&& b

/-- OR (R120). -/
def execOr (b a d : Reg) (s : State) : Out :=
  compute (.or b a d) [a, b] d s fun t => let a := t.src a; let b := t.src b; a ||| b

/-- XOR (R120). -/
def execXor (b a d : Reg) (s : State) : Out :=
  compute (.xor b a d) [a, b] d s fun t => let a := t.src a; let b := t.src b; a ^^^ b

/-- SHL (R120). -/
def execShl (b a d : Reg) (s : State) : Out :=
  compute (.shl b a d) [a, b] d s fun t => let a := t.src a; let b := t.src b; shlW a b

/-- SHR (R120). -/
def execShr (b a d : Reg) (s : State) : Out :=
  compute (.shr b a d) [a, b] d s fun t => let a := t.src a; let b := t.src b; shrW a b

/-- SAR (R120). -/
def execSar (b a d : Reg) (s : State) : Out :=
  compute (.sar b a d) [a, b] d s fun t => let a := t.src a; let b := t.src b; sarW a b

/-- SLT (R120). -/
def execSlt (b a d : Reg) (s : State) : Out :=
  compute (.slt b a d) [a, b] d s fun t => let a := t.src a; let b := t.src b; boolWord (a.slt b)

/-- SLTW (R120). -/
def execSltw (b a d : Reg) (s : State) : Out :=
  compute (.sltw b a d) [a, b] d s fun t => let a := t.src a; let b := t.src b; boolWord (a.ult b)

/-- MIN (R120). -/
def execMin (b a d : Reg) (s : State) : Out :=
  compute (.min b a d) [a, b] d s fun t => let a := t.src a; let b := t.src b; minS a b

/-- MAX (R120). -/
def execMax (b a d : Reg) (s : State) : Out :=
  compute (.max b a d) [a, b] d s fun t => let a := t.src a; let b := t.src b; maxS a b

/-- MINW (R120). -/
def execMinw (b a d : Reg) (s : State) : Out :=
  compute (.minw b a d) [a, b] d s fun t => let a := t.src a; let b := t.src b; minU a b

/-- MAXW (R120). -/
def execMaxw (b a d : Reg) (s : State) : Out :=
  compute (.maxw b a d) [a, b] d s fun t => let a := t.src a; let b := t.src b; maxU a b

/-- CLZ (R120). -/
def execClz (a d : Reg) (s : State) : Out :=
  compute (.clz a d) [a] d s fun t => BitVec.ofNat 64 (countLeadingZeros 64 (t.src a).toNat)

/-- CTZ (R120). -/
def execCtz (a d : Reg) (s : State) : Out :=
  compute (.ctz a d) [a] d s fun t => BitVec.ofNat 64 (countTrailingZeros 64 (t.src a).toNat)

/-- POPC (R120). -/
def execPopc (a d : Reg) (s : State) : Out :=
  compute (.popc a d) [a] d s fun t => BitVec.ofNat 64 (popCount 64 (t.src a).toNat)

/-- ADDI, with the EXT form (R122, R71). -/
def execAddi (x : Ext) (i : BitVec 14) (a d : Reg) (s : State) : Out :=
  compute (.addi x i a d) [a] d s fun t => t.src a + immS x i

/-- ANDI, with the EXT form (R122, R71). -/
def execAndi (x : Ext) (i : BitVec 14) (a d : Reg) (s : State) : Out :=
  compute (.andi x i a d) [a] d s fun t => t.src a &&& immZ x i

/-- ORI, with the EXT form (R122, R71). -/
def execOri (x : Ext) (i : BitVec 14) (a d : Reg) (s : State) : Out :=
  compute (.ori x i a d) [a] d s fun t => t.src a ||| immZ x i

/-- XORI, with the EXT form (R122, R71). -/
def execXori (x : Ext) (i : BitVec 14) (a d : Reg) (s : State) : Out :=
  compute (.xori x i a d) [a] d s fun t => t.src a ^^^ immZ x i

/-- SLTI, with the EXT form (R122, R71). -/
def execSlti (x : Ext) (i : BitVec 14) (a d : Reg) (s : State) : Out :=
  compute (.slti x i a d) [a] d s fun t => boolWord ((t.src a).slt (immS x i))

/-- SHLI (R122). -/
def execShli (n : BitVec 6) (a d : Reg) (s : State) : Out :=
  compute (.shli n a d) [a] d s fun t => t.src a <<< n

/-- SHRI (R122). -/
def execShri (n : BitVec 6) (a d : Reg) (s : State) : Out :=
  compute (.shri n a d) [a] d s fun t => t.src a >>> n

/-- SARI (R122). -/
def execSari (n : BitVec 6) (a d : Reg) (s : State) : Out :=
  compute (.sari n a d) [a] d s fun t => (t.src a).sshiftRight n.toNat

/-- LUI (R123). -/
def execLui (x : Ext) (i : BitVec 19) (d : Reg) (s : State) : Out :=
  compute (.lui x i d) [] d s fun _ => immL x i <<< (14 : Nat)

/-- ADDPC: the address of its first parcel plus the immediate (R123). -/
def execAddpc (x : Ext) (i : BitVec 19) (d : Reg) (s : State) : Out :=
  compute (.addpc x i d) [] d s fun t => t.pc + immL x i

/-- A hint of major 0x1F (R75). -/
def execHint (x : BitVec 24) (s : State) : Out := issue (.hint x) [] [] s fun _ u => done s u (.hint x)

/-- A compressed ADDI with D = 0, a hint (R75). -/
def execCHint (x : Reg) (s : State) : Out := issue (.cHint x) [] [] s fun _ u => done s u (.cHint x)

/-- The compressed ADDI gD, gD, sext(X) (R72, R143). -/
def execCAddi (x d : Reg) (s : State) : Out :=
  compute (.cAddi x d) [d] d s fun t => t.src d + sextWord 5 x.toNat

/-- The compressed ADD gD, gD, gX (R72, R143). -/
def execCAdd (x d : Reg) (s : State) : Out :=
  compute (.cAdd x d) [d, x] d s fun t => t.src d + t.src x

/-- The compressed SUB gD, gD, gX (R72, R143). -/
def execCSub (x d : Reg) (s : State) : Out :=
  compute (.cSub x d) [d, x] d s fun t => t.src d - t.src x

/-- The compressed AND gD, gD, gX (R72, R143). -/
def execCAnd (x d : Reg) (s : State) : Out :=
  compute (.cAnd x d) [d, x] d s fun t => t.src d &&& t.src x

/-- The compressed OR gD, gD, gX (R72, R143). -/
def execCOr (x d : Reg) (s : State) : Out :=
  compute (.cOr x d) [d, x] d s fun t => t.src d ||| t.src x

/-- The compressed XOR gD, gD, gX (R72, R143). -/
def execCXor (x d : Reg) (s : State) : Out :=
  compute (.cXor x d) [d, x] d s fun t => t.src d ^^^ t.src x

/-- The compressed SHLI gD, gD, X (R72, R143). -/
def execCShli (x d : Reg) (s : State) : Out :=
  compute (.cShli x d) [d] d s fun t => t.src d <<< x.toNat

/-- The compressed SHRI gD, gD, X (R72, R143). -/
def execCShri (x d : Reg) (s : State) : Out :=
  compute (.cShri x d) [d] d s fun t => t.src d >>> x.toNat

/-- The compressed SARI gD, gD, X (R72, R143). -/
def execCSari (x d : Reg) (s : State) : Out :=
  compute (.cSari x d) [d] d s fun t => (t.src d).sshiftRight x.toNat

/-- The compressed ADD gD, g0, gX (R72, R143). -/
def execCMv (x d : Reg) (s : State) : Out :=
  compute (.cMv x d) [x] d s fun t => t.src x

end
end Sys2Proof.Machine
end

