-- ==== Sys2Proof/Machine/ScalarFP.lean ====
section
/-! DEFINITION. Scalar floating point (spec/05_general_registers.md R116, R124 to R130). -/

namespace Sys2Proof.Machine
open Sys2Proof

noncomputable section

/-- A floating-point result: zero-extended into `d`, its flags set at once (R101, R116). -/
def fpResult (i : Instr) (srcs : List Reg) (d : Reg) (s : State) (f : Thread → Res) : Out :=
  issue i srcs [d] s fun t u =>
    let r := f t
    done s ((u.raise r.fl).result d (BitVec.ofNat 64 r.bits)) i

/-- FADD (R124). -/
def execFadd (r : BitVec 3) (b a d : Reg) (s : State) : Out :=
  fpResult (.fadd r b a d) [a, b] d s fun t =>
    fAdd .f32 (lowF32 (t.src a)) (lowF32 (t.src b)) (overrideMode r t.frm) (scalarHash t)

/-- FSUB (R124). -/
def execFsub (r : BitVec 3) (b a d : Reg) (s : State) : Out :=
  fpResult (.fsub r b a d) [a, b] d s fun t =>
    fSub .f32 (lowF32 (t.src a)) (lowF32 (t.src b)) (overrideMode r t.frm) (scalarHash t)

/-- FMUL (R124). -/
def execFmul (r : BitVec 3) (b a d : Reg) (s : State) : Out :=
  fpResult (.fmul r b a d) [a, b] d s fun t =>
    fMul .f32 (lowF32 (t.src a)) (lowF32 (t.src b)) (overrideMode r t.frm) (scalarHash t)

/-- FDIV (R124). -/
def execFdiv (r : BitVec 3) (b a d : Reg) (s : State) : Out :=
  fpResult (.fdiv r b a d) [a, b] d s fun t =>
    fDiv .f32 (lowF32 (t.src a)) (lowF32 (t.src b)) (overrideMode r t.frm) (scalarHash t)

/-- FSQRT (R124). -/
def execFsqrt (r : BitVec 3) (a d : Reg) (s : State) : Out :=
  fpResult (.fsqrt r a d) [a] d s fun t =>
    fSqrt .f32 (lowF32 (t.src a)) (overrideMode r t.frm) (scalarHash t)

/-- FMA, rounded once under FRM (R125). -/
def execFma (c b a d : Reg) (s : State) : Out :=
  fpResult (.fma c b a d) [a, b, c] d s fun t =>
    fFma .f32 false (lowF32 (t.src a)) (lowF32 (t.src b)) (lowF32 (t.src c)) (overrideMode 7 t.frm) (scalarHash t)

/-- FMIN (R127). -/
def execFmin (b a d : Reg) (s : State) : Out :=
  fpResult (.fmin b a d) [a, b] d s fun t => fMinMax .f32 false (lowF32 (t.src a)) (lowF32 (t.src b))

/-- FMAX (R127). -/
def execFmax (b a d : Reg) (s : State) : Out :=
  fpResult (.fmax b a d) [a, b] d s fun t => fMinMax .f32 true (lowF32 (t.src a)) (lowF32 (t.src b))

/-- FCMP: 1 where the relation holds (R128). -/
def execFcmp (c : BitVec 3) (b a d : Reg) (s : State) : Out :=
  fpResult (.fcmp c b a d) [a, b] d s fun t =>
    let r := fCmp .f32 c.toNat (lowF32 (t.src a)) (lowF32 (t.src b))
    ⟨if r.1 then 1 else 0, r.2⟩

/-- FCLASS (R129). -/
def execFclass (a d : Reg) (s : State) : Out :=
  fpResult (.fclass a d) [a] d s fun t => ⟨fClass (lowF32 (t.src a)), 0⟩

/-- The conversions of R130 by code. -/
def fcvtRes (code : Nat) (a : BitVec 64) (mode : Rm) (h : Nat) : Res :=
  if code = 0 then intToF a.toInt .f32 mode h
  else if code = 1 then intToF (Int.ofNat a.toNat) .f32 mode h
  else if code = 2 then
    let r := fToInt (decodeF .f32 (lowF32 a)) true 64 mode h
    ⟨wrapTo 64 r.1, r.2⟩
  else if code = 3 then
    let r := fToInt (decodeF .f32 (lowF32 a)) false 64 mode h
    ⟨wrapTo 64 r.1, r.2⟩
  else if code = 4 then fCvt .f32 .bf16 (lowF32 a) mode h
  else fCvt .bf16 .f32 (a.toNat % 2 ^ 16) mode h

/-- FCVT (R130). -/
def execFcvt (r : BitVec 3) (b a d : Reg) (s : State) : Out :=
  fpResult (.fcvt r b a d) [a] d s fun t =>
    fcvtRes b.toNat (t.src a) (overrideMode r t.frm) (scalarHash t)

end
end Sys2Proof.Machine
end

