-- ==== Sys2Proof/Machine/Vcfg.lean ====
section
/-! DEFINITION. VCFG and VCFGI: the vector configuration of the control thread (spec/07_vector_register_storage.md R172 to R179). -/

namespace Sys2Proof.Machine
open Sys2Proof

noncomputable section

/-- The configure operation (R179). -/
def configure (i : Instr) (a d : Reg) (srcs : List Reg) (newt : Thread → BitVec 64) (s : State) : Out :=
  issue i srcs [d] s fun t u =>
    let n := newt t
    if n.extractLsb' 6 58 ≠ 0 then illegal s t i
    else
      let vt : BitVec 6 := n.setWidth 6
      let vl : BitVec 14 := BitVec.ofNat 14 (min (t.src a).toNat (vlmax vt t.splitC))
      done s ({ u with vtype := vt, vl := vl }.result d (vl.setWidth 64)) i

/-- VCFG (R178, R179). -/
def execVcfg (b a d : Reg) (s : State) : Out := configure (.vcfg b a d) a d [a, b] (fun t => t.src b) s

/-- VCFGI (R178, R179): the immediate is the new VTYPE. -/
def execVcfgi (x : Ext) (i : BitVec 6) (a d : Reg) (s : State) : Out :=
  configure (.vcfgi x i a d) a d [a] (fun _ => i.setWidth 64) s

/-- VCFG.VL (R178). -/
def execVcfgVl (d : Reg) (s : State) : Out := compute (.vcfgVl d) [] d s fun t => t.vl.setWidth 64
/-- VCFG.VTYPE (R178). -/
def execVcfgVtype (d : Reg) (s : State) : Out := compute (.vcfgVtype d) [] d s fun t => t.vtype.setWidth 64
/-- VCFG.VLMAX (R173, R178). -/
def execVcfgVlmax (d : Reg) (s : State) : Out :=
  compute (.vcfgVlmax d) [] d s fun t => BitVec.ofNat 64 (vlmax t.vtype t.splitC)
/-- VCFG.VCP (R164, R178). -/
def execVcfgVcp (d : Reg) (s : State) : Out := compute (.vcfgVcp d) [] d s fun t => t.vcp
/-- VCFG.VSTART: it waits for VCP, as MFS of FFLAGS does (R101, R178). -/
def execVcfgVstart (d : Reg) (s : State) : Out :=
  let i := Instr.vcfgVstart d
  issue i [] [d] s fun t u => afterVcp i s t (done s (u.result d (t.vstart.setWidth 64)) i)
/-- VCFG.RLEN (R178). -/
def execVcfgRlen (d : Reg) (s : State) : Out :=
  compute (.vcfgRlen d) [] d s fun t => BitVec.ofNat 64 (rlenOf t.splitC)

end
end Sys2Proof.Machine
end

