-- ==== Sys2Proof/Machine/Dispatch.lean ====
section
/-! DEFINITION. What each instruction, event and command does: one arm per row of the opcode table. -/

namespace Sys2Proof.Machine
open Sys2Proof

-- `exec` has no compiled form: `Instr` has more constructors with fields than compiled code can number (244).
open Sys2Proof in /-- The outcome of an instruction on the thread of the slot `State.cur`, or of an event or a command. -/ noncomputable
def exec (i : Instr) (s : State) : Host.Outcome State Fault Refusal :=
  match i with
  | .add b a d => Sys2Proof.Machine.execAdd b a d s
  | .sub b a d => Sys2Proof.Machine.execSub b a d s
  | .mul b a d => Sys2Proof.Machine.execMul b a d s
  | .mulh b a d => Sys2Proof.Machine.execMulh b a d s
  | .mulhw b a d => Sys2Proof.Machine.execMulhw b a d s
  | .div b a d => Sys2Proof.Machine.execDiv b a d s
  | .divw b a d => Sys2Proof.Machine.execDivw b a d s
  | .rem b a d => Sys2Proof.Machine.execRem b a d s
  | .remw b a d => Sys2Proof.Machine.execRemw b a d s
  | .and b a d => Sys2Proof.Machine.execAnd b a d s
  | .or b a d => Sys2Proof.Machine.execOr b a d s
  | .xor b a d => Sys2Proof.Machine.execXor b a d s
  | .shl b a d => Sys2Proof.Machine.execShl b a d s
  | .shr b a d => Sys2Proof.Machine.execShr b a d s
  | .sar b a d => Sys2Proof.Machine.execSar b a d s
  | .slt b a d => Sys2Proof.Machine.execSlt b a d s
  | .sltw b a d => Sys2Proof.Machine.execSltw b a d s
  | .min b a d => Sys2Proof.Machine.execMin b a d s
  | .max b a d => Sys2Proof.Machine.execMax b a d s
  | .minw b a d => Sys2Proof.Machine.execMinw b a d s
  | .maxw b a d => Sys2Proof.Machine.execMaxw b a d s
  | .clz a d => Sys2Proof.Machine.execClz a d s
  | .ctz a d => Sys2Proof.Machine.execCtz a d s
  | .popc a d => Sys2Proof.Machine.execPopc a d s
  | .addi x im a d => Sys2Proof.Machine.execAddi x im a d s
  | .andi x im a d => Sys2Proof.Machine.execAndi x im a d s
  | .ori x im a d => Sys2Proof.Machine.execOri x im a d s
  | .xori x im a d => Sys2Proof.Machine.execXori x im a d s
  | .slti x im a d => Sys2Proof.Machine.execSlti x im a d s
  | .shli n a d => Sys2Proof.Machine.execShli n a d s
  | .shri n a d => Sys2Proof.Machine.execShri n a d s
  | .sari n a d => Sys2Proof.Machine.execSari n a d s
  | .lui x im d => Sys2Proof.Machine.execLui x im d s
  | .addpc x im d => Sys2Proof.Machine.execAddpc x im d s
  | .ld x im w a d => Sys2Proof.Machine.execLd x im w a d s
  | .st x im w b a j => Sys2Proof.Machine.execSt x im w b a j s
  | .ldAcq scope w a d => Sys2Proof.Machine.execLdAcq scope w a d s
  | .stRel scope w b a => Sys2Proof.Machine.execStRel scope w b a s
  | .amoAdd f b a d => Sys2Proof.Machine.execAmoAdd f b a d s
  | .amoMin f b a d => Sys2Proof.Machine.execAmoMin f b a d s
  | .amoMax f b a d => Sys2Proof.Machine.execAmoMax f b a d s
  | .amoAnd f b a d => Sys2Proof.Machine.execAmoAnd f b a d s
  | .amoOr f b a d => Sys2Proof.Machine.execAmoOr f b a d s
  | .amoXor f b a d => Sys2Proof.Machine.execAmoXor f b a d s
  | .amoSwap f b a d => Sys2Proof.Machine.execAmoSwap f b a d s
  | .amoCas f b a d => Sys2Proof.Machine.execAmoCas f b a d s
  | .amox f b a => Sys2Proof.Machine.execAmox f b a s
  | .amoReply t => Sys2Proof.Machine.execAmoReply t s
  | .beq x im b a j => Sys2Proof.Machine.execBeq x im b a j s
  | .bne x im b a j => Sys2Proof.Machine.execBne x im b a j s
  | .blt x im b a j => Sys2Proof.Machine.execBlt x im b a j s
  | .bge x im b a j => Sys2Proof.Machine.execBge x im b a j s
  | .bltw x im b a j => Sys2Proof.Machine.execBltw x im b a j s
  | .bgew x im b a j => Sys2Proof.Machine.execBgew x im b a j s
  | .jal x im d => Sys2Proof.Machine.execJal x im d s
  | .jalr x im a d => Sys2Proof.Machine.execJalr x im a d s
  | .loopn scope b a d => Sys2Proof.Machine.execLoopn scope b a d s
  | .fadd r b a d => Sys2Proof.Machine.execFadd r b a d s
  | .fsub r b a d => Sys2Proof.Machine.execFsub r b a d s
  | .fmul r b a d => Sys2Proof.Machine.execFmul r b a d s
  | .fdiv r b a d => Sys2Proof.Machine.execFdiv r b a d s
  | .fsqrt r a d => Sys2Proof.Machine.execFsqrt r a d s
  | .fmin b a d => Sys2Proof.Machine.execFmin b a d s
  | .fmax b a d => Sys2Proof.Machine.execFmax b a d s
  | .fcmp c b a d => Sys2Proof.Machine.execFcmp c b a d s
  | .fcvt r b a d => Sys2Proof.Machine.execFcvt r b a d s
  | .fclass a d => Sys2Proof.Machine.execFclass a d s
  | .fma c b a d => Sys2Proof.Machine.execFma c b a d s
  | .mfs b d => Sys2Proof.Machine.execMfs b d s
  | .mts b a => Sys2Proof.Machine.execMts b a s
  | .mtsFrm a => Sys2Proof.Machine.execMtsFrm a s
  | .mtsFflags a => Sys2Proof.Machine.execMtsFflags a s
  | .mtsSat a => Sys2Proof.Machine.execMtsSat a s
  | .mtsEfc a => Sys2Proof.Machine.execMtsEfc a s
  | .mtsTstat a => Sys2Proof.Machine.execMtsTstat a s
  | .mtsPrio a => Sys2Proof.Machine.execMtsPrio a s
  | .mtsWshare a => Sys2Proof.Machine.execMtsWshare a s
  | .mtsAspace a => Sys2Proof.Machine.execMtsAspace a s
  | .mtsIshape a => Sys2Proof.Machine.execMtsIshape a s
  | .trap b => Sys2Proof.Machine.execTrap b s
  | .eret => Sys2Proof.Machine.execEret s
  | .halt => Sys2Proof.Machine.execHalt s
  | .fence scope => Sys2Proof.Machine.execFence scope s
  | .fenceComplete t => Sys2Proof.Machine.execFenceComplete t s
  | .iflush b a => Sys2Proof.Machine.execIflush b a s
  | .isync => Sys2Proof.Machine.execIsync s
  | .isyncComplete t => Sys2Proof.Machine.execIsyncComplete t s
  | .tlbinv b a => Sys2Proof.Machine.execTlbinv b a s
  | .tlbinvA a => Sys2Proof.Machine.execTlbinvA a s
  | .tlbinvComplete t => Sys2Proof.Machine.execTlbinvComplete t s
  | .spawn a d => Sys2Proof.Machine.execSpawn a d s
  | .exit => Sys2Proof.Machine.execExit s
  | .join a d => Sys2Proof.Machine.execJoin a d s
  | .leave a d => Sys2Proof.Machine.execLeave a d s
  | .barg a d => Sys2Proof.Machine.execBarg a d s
  | .staggeredRelease t => Sys2Proof.Machine.execStaggeredRelease t s
  | .yield a d => Sys2Proof.Machine.execYield a d s
  | .wpush a d => Sys2Proof.Machine.execWpush a d s
  | .wpop d => Sys2Proof.Machine.execWpop d s
  | .wsteal a d => Sys2Proof.Machine.execWsteal a d s
  | .claim b a d => Sys2Proof.Machine.execClaim b a d s
  | .waitw scope b a d => Sys2Proof.Machine.execWaitw scope b a d s
  | .waitwWake t => Sys2Proof.Machine.execWaitwWake t s
  | .waitt a d => Sys2Proof.Machine.execWaitt a d s
  | .waittWake t => Sys2Proof.Machine.execWaittWake t s
  | .vcfg b a d => Sys2Proof.Machine.execVcfg b a d s
  | .vcfgVl d => Sys2Proof.Machine.execVcfgVl d s
  | .vcfgVtype d => Sys2Proof.Machine.execVcfgVtype d s
  | .vcfgVlmax d => Sys2Proof.Machine.execVcfgVlmax d s
  | .vcfgVcp d => Sys2Proof.Machine.execVcfgVcp d s
  | .vcfgVstart d => Sys2Proof.Machine.execVcfgVstart d s
  | .vcfgRlen d => Sys2Proof.Machine.execVcfgRlen d s
  | .vcfgi x im a d => Sys2Proof.Machine.execVcfgi x im a d s
  | .sbind p n a d => Sys2Proof.Machine.execSbind p n a d s
  | .sbindQGeneral p n d => Sys2Proof.Machine.execSbindQGeneral p n d s
  | .sbindQVector p n d => Sys2Proof.Machine.execSbindQVector p n d s
  | .sunbind p n d => Sys2Proof.Machine.execSunbind p n d s
  | .sunbindQ p n d => Sys2Proof.Machine.execSunbindQ p n d s
  | .sskip p n a => Sys2Proof.Machine.execSskip p n a s
  | .spos p n d => Sys2Proof.Machine.execSpos p n d s
  | .stbar p scope => Sys2Proof.Machine.execStbar p scope s
  | .stbarComplete t => Sys2Proof.Machine.execStbarComplete t s
  | .waitc p a d => Sys2Proof.Machine.execWaitc p a d s
  | .waitcWake t => Sys2Proof.Machine.execWaitcWake t s
  | .bset p b a d => Sys2Proof.Machine.execBset p b a d s
  | .tcfg p b a => Sys2Proof.Machine.execTcfg p b a s
  | .chwait p d => Sys2Proof.Machine.execChwait p d s
  | .chwaitWake t => Sys2Proof.Machine.execChwaitWake t s
  | .nset p a d => Sys2Proof.Machine.execNset p a d s
  | .nsetF p b a d => Sys2Proof.Machine.execNsetF p b a d s
  | .nsig p a d => Sys2Proof.Machine.execNsig p a d s
  | .nsigRank p a d => Sys2Proof.Machine.execNsigRank p a d s
  | .nsigCount p a d => Sys2Proof.Machine.execNsigCount p a d s
  | .nsigSeq p a d => Sys2Proof.Machine.execNsigSeq p a d s
  | .tmapset a d => Sys2Proof.Machine.execTmapset a d s
  | .tfetch a d => Sys2Proof.Machine.execTfetch a d s
  | .tevict a d => Sys2Proof.Machine.execTevict a d s
  | .tlog scope b a d => Sys2Proof.Machine.execTlog scope b a d s
  | .tcompact a d => Sys2Proof.Machine.execTcompact a d s
  | .tstat a d => Sys2Proof.Machine.execTstat a d s
  | .vpubl a d => Sys2Proof.Machine.execVpubl a d s
  | .vpublWait a d => Sys2Proof.Machine.execVpublWait a d s
  | .vpublAt b a d => Sys2Proof.Machine.execVpublAt b a d s
  | .vpublWaitAt b a d => Sys2Proof.Machine.execVpublWaitAt b a d s
  | .vpublWaitResume t => Sys2Proof.Machine.execVpublWaitResume t s
  | .toksw a d => Sys2Proof.Machine.execToksw a d s
  | .tokswMin b a d => Sys2Proof.Machine.execTokswMin b a d s
  | .tokswMinResume t => Sys2Proof.Machine.execTokswMinResume t s
  | .versionPinRelease part n => Sys2Proof.Machine.execVersionPinRelease part n s
  | .sttok b a => Sys2Proof.Machine.execSttok b a s
  | .vpin a d => Sys2Proof.Machine.execVpin a d s
  | .vunpin a d => Sys2Proof.Machine.execVunpin a d s
  | .hint x => Sys2Proof.Machine.execHint x s
  | .cHint x => Sys2Proof.Machine.execCHint x s
  | .cAddi x d => Sys2Proof.Machine.execCAddi x d s
  | .cAdd x d => Sys2Proof.Machine.execCAdd x d s
  | .cSub x d => Sys2Proof.Machine.execCSub x d s
  | .cAnd x d => Sys2Proof.Machine.execCAnd x d s
  | .cOr x d => Sys2Proof.Machine.execCOr x d s
  | .cXor x d => Sys2Proof.Machine.execCXor x d s
  | .cShli x d => Sys2Proof.Machine.execCShli x d s
  | .cShri x d => Sys2Proof.Machine.execCShri x d s
  | .cSari x d => Sys2Proof.Machine.execCSari x d s
  | .cLdI64 x d => Sys2Proof.Machine.execCLdI64 x d s
  | .cStI64 x d => Sys2Proof.Machine.execCStI64 x d s
  | .cBeq x d => Sys2Proof.Machine.execCBeq x d s
  | .cBne x d => Sys2Proof.Machine.execCBne x d s
  | .cJr d => Sys2Proof.Machine.execCJr d s
  | .cJalr d => Sys2Proof.Machine.execCJalr d s
  | .cMv x d => Sys2Proof.Machine.execCMv x d s
  | .cvVaddI32 b d => Sys2Proof.Machine.execCvVaddI32 b d s
  | .cvVsubI32 b d => Sys2Proof.Machine.execCvVsubI32 b d s
  | .cvVmulI32 b d => Sys2Proof.Machine.execCvVmulI32 b d s
  | .cvVmaccI32 b d => Sys2Proof.Machine.execCvVmaccI32 b d s
  | .cvVmaxI32 b d => Sys2Proof.Machine.execCvVmaxI32 b d s
  | .cvVxorI32 b d => Sys2Proof.Machine.execCvVxorI32 b d s
  | .cvVfaddF32 b d => Sys2Proof.Machine.execCvVfaddF32 b d s
  | .cvVfmulF32 b d => Sys2Proof.Machine.execCvVfmulF32 b d s
  | .cvVfmaF32 b d => Sys2Proof.Machine.execCvVfmaF32 b d s
  | .cvVfmaxF32 b d => Sys2Proof.Machine.execCvVfmaxF32 b d s
  | .cvVfaddBf16 b d => Sys2Proof.Machine.execCvVfaddBf16 b d s
  | .cvVfmulBf16 b d => Sys2Proof.Machine.execCvVfmulBf16 b d s
  | .cvVfmaBf16 b d => Sys2Proof.Machine.execCvVfmaBf16 b d s
  | .cvVfmaxBf16 b d => Sys2Proof.Machine.execCvVfmaxBf16 b d s
  | .vaddVv o => Sys2Proof.Machine.execVaddVv o s
  | .vaddVg o => Sys2Proof.Machine.execVaddVg o s
  | .vaddVi o => Sys2Proof.Machine.execVaddVi o s
  | .vsubVv o => Sys2Proof.Machine.execVsubVv o s
  | .vsubVg o => Sys2Proof.Machine.execVsubVg o s
  | .vrsubVg o => Sys2Proof.Machine.execVrsubVg o s
  | .vrsubVi o => Sys2Proof.Machine.execVrsubVi o s
  | .vmulVv o => Sys2Proof.Machine.execVmulVv o s
  | .vmulVg o => Sys2Proof.Machine.execVmulVg o s
  | .vmulhVv o => Sys2Proof.Machine.execVmulhVv o s
  | .vmulhVg o => Sys2Proof.Machine.execVmulhVg o s
  | .vmaccVv o => Sys2Proof.Machine.execVmaccVv o s
  | .vmaccVg o => Sys2Proof.Machine.execVmaccVg o s
  | .vnmsacVv o => Sys2Proof.Machine.execVnmsacVv o s
  | .vnmsacVg o => Sys2Proof.Machine.execVnmsacVg o s
  | .vwaddVv o => Sys2Proof.Machine.execVwaddVv o s
  | .vwaddVg o => Sys2Proof.Machine.execVwaddVg o s
  | .vwmulVv o => Sys2Proof.Machine.execVwmulVv o s
  | .vwmulVg o => Sys2Proof.Machine.execVwmulVg o s
  | .vwmaccVv o => Sys2Proof.Machine.execVwmaccVv o s
  | .vwmaccVg o => Sys2Proof.Machine.execVwmaccVg o s
  | .vnshrVv o => Sys2Proof.Machine.execVnshrVv o s
  | .vnshrVg o => Sys2Proof.Machine.execVnshrVg o s
  | .vnshrVi o => Sys2Proof.Machine.execVnshrVi o s
  | .vsaddVv o => Sys2Proof.Machine.execVsaddVv o s
  | .vsaddVg o => Sys2Proof.Machine.execVsaddVg o s
  | .vsaddVi o => Sys2Proof.Machine.execVsaddVi o s
  | .vssubVv o => Sys2Proof.Machine.execVssubVv o s
  | .vssubVg o => Sys2Proof.Machine.execVssubVg o s
  | .vavgVv o => Sys2Proof.Machine.execVavgVv o s
  | .vavgVg o => Sys2Proof.Machine.execVavgVg o s
  | .vminVv o => Sys2Proof.Machine.execVminVv o s
  | .vminVg o => Sys2Proof.Machine.execVminVg o s
  | .vmaxVv o => Sys2Proof.Machine.execVmaxVv o s
  | .vmaxVg o => Sys2Proof.Machine.execVmaxVg o s
  | .vandVv o => Sys2Proof.Machine.execVandVv o s
  | .vandVg o => Sys2Proof.Machine.execVandVg o s
  | .vandVi o => Sys2Proof.Machine.execVandVi o s
  | .vorVv o => Sys2Proof.Machine.execVorVv o s
  | .vorVg o => Sys2Proof.Machine.execVorVg o s
  | .vorVi o => Sys2Proof.Machine.execVorVi o s
  | .vxorVv o => Sys2Proof.Machine.execVxorVv o s
  | .vxorVg o => Sys2Proof.Machine.execVxorVg o s
  | .vxorVi o => Sys2Proof.Machine.execVxorVi o s
  | .vshlVv o => Sys2Proof.Machine.execVshlVv o s
  | .vshlVg o => Sys2Proof.Machine.execVshlVg o s
  | .vshlVi o => Sys2Proof.Machine.execVshlVi o s
  | .vshrVv o => Sys2Proof.Machine.execVshrVv o s
  | .vshrVg o => Sys2Proof.Machine.execVshrVg o s
  | .vshrVi o => Sys2Proof.Machine.execVshrVi o s
  | .vsarVv o => Sys2Proof.Machine.execVsarVv o s
  | .vsarVg o => Sys2Proof.Machine.execVsarVg o s
  | .vsarVi o => Sys2Proof.Machine.execVsarVi o s
  | .vmergeVv o => Sys2Proof.Machine.execVmergeVv o s
  | .vmergeVg o => Sys2Proof.Machine.execVmergeVg o s
  | .vmergeVi o => Sys2Proof.Machine.execVmergeVi o s
  | .vmvVv o => Sys2Proof.Machine.execVmvVv o s
  | .vmvVg o => Sys2Proof.Machine.execVmvVg o s
  | .vmvVi o => Sys2Proof.Machine.execVmvVi o s
  | .vcmpEqVv o => Sys2Proof.Machine.execVcmpEqVv o s
  | .vcmpEqVg o => Sys2Proof.Machine.execVcmpEqVg o s
  | .vcmpEqVi o => Sys2Proof.Machine.execVcmpEqVi o s
  | .vcmpNeVv o => Sys2Proof.Machine.execVcmpNeVv o s
  | .vcmpNeVg o => Sys2Proof.Machine.execVcmpNeVg o s
  | .vcmpNeVi o => Sys2Proof.Machine.execVcmpNeVi o s
  | .vcmpLtVv o => Sys2Proof.Machine.execVcmpLtVv o s
  | .vcmpLtVg o => Sys2Proof.Machine.execVcmpLtVg o s
  | .vcmpLtVi o => Sys2Proof.Machine.execVcmpLtVi o s
  | .vcmpLeVv o => Sys2Proof.Machine.execVcmpLeVv o s
  | .vcmpLeVg o => Sys2Proof.Machine.execVcmpLeVg o s
  | .vcmpLeVi o => Sys2Proof.Machine.execVcmpLeVi o s
  | .vcmpGtVv o => Sys2Proof.Machine.execVcmpGtVv o s
  | .vcmpGtVg o => Sys2Proof.Machine.execVcmpGtVg o s
  | .vcmpGtVi o => Sys2Proof.Machine.execVcmpGtVi o s
  | .vcmpGeVv o => Sys2Proof.Machine.execVcmpGeVv o s
  | .vcmpGeVg o => Sys2Proof.Machine.execVcmpGeVg o s
  | .vcmpGeVi o => Sys2Proof.Machine.execVcmpGeVi o s
  | .vfaddVv o => Sys2Proof.Machine.execVfaddVv o s
  | .vfaddVg o => Sys2Proof.Machine.execVfaddVg o s
  | .vfsubVv o => Sys2Proof.Machine.execVfsubVv o s
  | .vfsubVg o => Sys2Proof.Machine.execVfsubVg o s
  | .vfmulVv o => Sys2Proof.Machine.execVfmulVv o s
  | .vfmulVg o => Sys2Proof.Machine.execVfmulVg o s
  | .vfmaVv o => Sys2Proof.Machine.execVfmaVv o s
  | .vfmaVg o => Sys2Proof.Machine.execVfmaVg o s
  | .vfnmaVv o => Sys2Proof.Machine.execVfnmaVv o s
  | .vfnmaVg o => Sys2Proof.Machine.execVfnmaVg o s
  | .vfdivVv o => Sys2Proof.Machine.execVfdivVv o s
  | .vfdivVg o => Sys2Proof.Machine.execVfdivVg o s
  | .vfsqrt o => Sys2Proof.Machine.execVfsqrt o s
  | .vfminVv o => Sys2Proof.Machine.execVfminVv o s
  | .vfminVg o => Sys2Proof.Machine.execVfminVg o s
  | .vfmaxVv o => Sys2Proof.Machine.execVfmaxVv o s
  | .vfmaxVg o => Sys2Proof.Machine.execVfmaxVg o s
  | .vfcmpEqVv o => Sys2Proof.Machine.execVfcmpEqVv o s
  | .vfcmpEqVg o => Sys2Proof.Machine.execVfcmpEqVg o s
  | .vfcmpNeVv o => Sys2Proof.Machine.execVfcmpNeVv o s
  | .vfcmpNeVg o => Sys2Proof.Machine.execVfcmpNeVg o s
  | .vfcmpLtVv o => Sys2Proof.Machine.execVfcmpLtVv o s
  | .vfcmpLtVg o => Sys2Proof.Machine.execVfcmpLtVg o s
  | .vfcmpLeVv o => Sys2Proof.Machine.execVfcmpLeVv o s
  | .vfcmpLeVg o => Sys2Proof.Machine.execVfcmpLeVg o s
  | .vfcmpGtVv o => Sys2Proof.Machine.execVfcmpGtVv o s
  | .vfcmpGtVg o => Sys2Proof.Machine.execVfcmpGtVg o s
  | .vfcmpGeVv o => Sys2Proof.Machine.execVfcmpGeVv o s
  | .vfcmpGeVg o => Sys2Proof.Machine.execVfcmpGeVg o s
  | .vfcmpUnVv o => Sys2Proof.Machine.execVfcmpUnVv o s
  | .vfcmpUnVg o => Sys2Proof.Machine.execVfcmpUnVg o s
  | .mand o => Sys2Proof.Machine.execMand o s
  | .mor o => Sys2Proof.Machine.execMor o s
  | .mxor o => Sys2Proof.Machine.execMxor o s
  | .mnot o => Sys2Proof.Machine.execMnot o s
  | .mpopc o => Sys2Proof.Machine.execMpopc o s
  | .mffs o => Sys2Proof.Machine.execMffs o s
  | .mset o => Sys2Proof.Machine.execMset o s
  | .vreconf o => Sys2Proof.Machine.execVreconf o s
  | .vslideu o => Sys2Proof.Machine.execVslideu o s
  | .vslided o => Sys2Proof.Machine.execVslided o s
  | .vgather o => Sys2Proof.Machine.execVgather o s
  | .vcompress o => Sys2Proof.Machine.execVcompress o s
  | .viota o => Sys2Proof.Machine.execViota o s
  | .vext o => Sys2Proof.Machine.execVext o s
  | .vins o => Sys2Proof.Machine.execVins o s
  | .vredsum o => Sys2Proof.Machine.execVredsum o s
  | .vredmax o => Sys2Proof.Machine.execVredmax o s
  | .vredmin o => Sys2Proof.Machine.execVredmin o s
  | .vfredsum o => Sys2Proof.Machine.execVfredsum o s
  | .vfredmax o => Sys2Proof.Machine.execVfredmax o s
  | .vfredmin o => Sys2Proof.Machine.execVfredmin o s
  | .vfredms o => Sys2Proof.Machine.execVfredms o s
  | .vfcvt o => Sys2Proof.Machine.execVfcvt o s
  | .vfcvtEf o => Sys2Proof.Machine.execVfcvtEf o s
  | .vrec o => Sys2Proof.Machine.execVrec o s
  | .vendrec o => Sys2Proof.Machine.execVendrec o s
  | .vreplay o => Sys2Proof.Machine.execVreplay o s
  | .aalloc o => Sys2Proof.Machine.execAalloc o s
  | .aallocWait o => Sys2Proof.Machine.execAallocWait o s
  | .aallocWaitBind facet => Sys2Proof.Machine.execAallocWaitBind facet s
  | .afree o => Sys2Proof.Machine.execAfree o s
  | .aclr o => Sys2Proof.Machine.execAclr o s
  | .ldws o => Sys2Proof.Machine.execLdws o s
  | .swpl o => Sys2Proof.Machine.execSwpl o s
  | .mstream o => Sys2Proof.Machine.execMstream o s
  | .mopa o => Sys2Proof.Machine.execMopa o s
  | .mops o => Sys2Proof.Machine.execMops o s
  | .axtr o => Sys2Proof.Machine.execAxtr o s
  | .axtc o => Sys2Proof.Machine.execAxtc o s
  | .asave o => Sys2Proof.Machine.execAsave o s
  | .aload o => Sys2Proof.Machine.execAload o s
  | .aaddi o => Sys2Proof.Machine.execAaddi o s
  | .trow o => Sys2Proof.Machine.execTrow o s
  | .tcol o => Sys2Proof.Machine.execTcol o s
  | .tld o => Sys2Proof.Machine.execTld o s
  | .tst o => Sys2Proof.Machine.execTst o s
  | .vld o => Sys2Proof.Machine.execVld o s
  | .vlds o => Sys2Proof.Machine.execVlds o s
  | .vldx o => Sys2Proof.Machine.execVldx o s
  | .vldseg o => Sys2Proof.Machine.execVldseg o s
  | .vldff o => Sys2Proof.Machine.execVldff o s
  | .cbld o => Sys2Proof.Machine.execCbld o s
  | .vfill o => Sys2Proof.Machine.execVfill o s
  | .vst o => Sys2Proof.Machine.execVst o s
  | .vsts o => Sys2Proof.Machine.execVsts o s
  | .vstx o => Sys2Proof.Machine.execVstx o s
  | .vstseg o => Sys2Proof.Machine.execVstseg o s
  | .vspill o => Sys2Proof.Machine.execVspill o s
  | .ldpSum o => Sys2Proof.Machine.execLdpSum o s
  | .ldpMax o => Sys2Proof.Machine.execLdpMax o s
  | .ldpMin o => Sys2Proof.Machine.execLdpMin o s
  | .ldpMaxsum o => Sys2Proof.Machine.execLdpMaxsum o s
  | .ldpAnd o => Sys2Proof.Machine.execLdpAnd o s
  | .ldpOr o => Sys2Proof.Machine.execLdpOr o s
  | .ldpXor o => Sys2Proof.Machine.execLdpXor o s
  | .ldpFirst o => Sys2Proof.Machine.execLdpFirst o s
  | .stp o => Sys2Proof.Machine.execStp o s
  | .chrun o => Sys2Proof.Machine.execChrun o s
  | .chordCommandPlace bank => Sys2Proof.Machine.execChordCommandPlace bank s
  | .chordRunStart bank => Sys2Proof.Machine.execChordRunStart bank s
  | .chordRunEnd bank => Sys2Proof.Machine.execChordRunEnd bank s
  | .vamoAdd o => Sys2Proof.Machine.execVamoAdd o s
  | .vamoMin o => Sys2Proof.Machine.execVamoMin o s
  | .vamoMax o => Sys2Proof.Machine.execVamoMax o s
  | .vamoAnd o => Sys2Proof.Machine.execVamoAnd o s
  | .vamoOr o => Sys2Proof.Machine.execVamoOr o s
  | .vamoXor o => Sys2Proof.Machine.execVamoXor o s
  | .vamoSwap o => Sys2Proof.Machine.execVamoSwap o s
  | .vamoCas o => Sys2Proof.Machine.execVamoCas o s
  | .vamooAdd o => Sys2Proof.Machine.execVamooAdd o s
  | .vamooMin o => Sys2Proof.Machine.execVamooMin o s
  | .vamooMax o => Sys2Proof.Machine.execVamooMax o s
  | .vamooAnd o => Sys2Proof.Machine.execVamooAnd o s
  | .vamooOr o => Sys2Proof.Machine.execVamooOr o s
  | .vamooXor o => Sys2Proof.Machine.execVamooXor o s
  | .vamooSwap o => Sys2Proof.Machine.execVamooSwap o s
  | .vamooCas o => Sys2Proof.Machine.execVamooCas o s
  | .tmov o => Sys2Proof.Machine.execTmov o s
  | .tmovComplete id => Sys2Proof.Machine.execTmovComplete id s
  | .tokp o => Sys2Proof.Machine.execTokp o s
  | .tokw o => Sys2Proof.Machine.execTokw o s
  | .vfence o => Sys2Proof.Machine.execVfence o s
  | .vfenceD o => Sys2Proof.Machine.execVfenceD o s
  | .vcoll o => Sys2Proof.Machine.execVcoll o s
  | .collectiveChunkArrival c => Sys2Proof.Machine.execCollectiveChunkArrival c s
  | .collectiveGo t => Sys2Proof.Machine.execCollectiveGo t s
  | .collectiveAbort t => Sys2Proof.Machine.execCollectiveAbort t s
  | .vsend o => Sys2Proof.Machine.execVsend o s
  | .vrecv o => Sys2Proof.Machine.execVrecv o s
  | .messageArrival m => Sys2Proof.Machine.execMessageArrival m s
  | .endpointChunkSend facet => Sys2Proof.Machine.execEndpointChunkSend facet s
  | .slotFreeNotice h => Sys2Proof.Machine.execSlotFreeNotice h s
  | .fabricErrorTimeout t port => Sys2Proof.Machine.execFabricErrorTimeout t port s
  | .linkFlitRetry port => Sys2Proof.Machine.execLinkFlitRetry port s
  | .entryStart t => Sys2Proof.Machine.execEntryStart t s
  | .entryCommit t => Sys2Proof.Machine.execEntryCommit t s
  | .vectorQueuePushResume t => Sys2Proof.Machine.execVectorQueuePushResume t s
  | .queueRegisterResume t q => Sys2Proof.Machine.execQueueRegisterResume t q s
  | .streamStripRead t n => Sys2Proof.Machine.execStreamStripRead t n s
  | .writeStreamStore t => Sys2Proof.Machine.execWriteStreamStore t s
  | .tileLogCompaction part win tile => Sys2Proof.Machine.execTileLogCompaction part win tile s
  | .tileArrival part win tile => Sys2Proof.Machine.execTileArrival part win tile s
  | .tileLeave part win tile => Sys2Proof.Machine.execTileLeave part win tile s
  | .combineDrain t => Sys2Proof.Machine.execCombineDrain t s
  | .slotPlacement part slot => Sys2Proof.Machine.execSlotPlacement part slot s
  | .preemption t => Sys2Proof.Machine.execPreemption t s
  | .contextSaveDone t => Sys2Proof.Machine.execContextSaveDone t s
  | .lmaxExpiry bank => Sys2Proof.Machine.execLmaxExpiry bank s
  | .latticeIdleTimeout part => Sys2Proof.Machine.execLatticeIdleTimeout part s
  | .storageErrorDetected k => Sys2Proof.Machine.execStorageErrorDetected k s
  | .hostMemAccess write addr data => Sys2Proof.Machine.execHostMemAccess write addr data s
  | .powerOnReset b => Sys2Proof.Machine.execPowerOnReset b s
  | .expanderLost port => Sys2Proof.Machine.execExpanderLost port s
  | .fuondLinkFailed port => Sys2Proof.Machine.execFuondLinkFailed port s
  | .ptpMessage m => Sys2Proof.Machine.execPtpMessage m s
  | .ptpLockLost => Sys2Proof.Machine.execPtpLockLost s
  | .ident ch => Sys2Proof.Machine.execIdent ch s
  | .partset ch => Sys2Proof.Machine.execPartset ch s
  | .lmax ch => Sys2Proof.Machine.execLmax ch s
  | .vtabRegister ch => Sys2Proof.Machine.execVtabRegister ch s
  | .vtabRemove ch => Sys2Proof.Machine.execVtabRemove ch s
  | .planld ch => Sys2Proof.Machine.execPlanld ch s
  | .planfr ch => Sys2Proof.Machine.execPlanfr ch s
  | .slew ch => Sys2Proof.Machine.execSlew ch s
  | .pkgid ch => Sys2Proof.Machine.execPkgid ch s
  | .dbgAttach ch => Sys2Proof.Machine.execDbgAttach ch s
  | .dbgDetach ch => Sys2Proof.Machine.execDbgDetach ch s
  | .dbgResume ch => Sys2Proof.Machine.execDbgResume ch s
  | .dbgSave ch => Sys2Proof.Machine.execDbgSave ch s
  | .dbgRestore ch => Sys2Proof.Machine.execDbgRestore ch s
  | .status ch => Sys2Proof.Machine.execStatus ch s
  | .fwupd ch => Sys2Proof.Machine.execFwupd ch s
  | .softc ch => Sys2Proof.Machine.execSoftc ch s
  | .launch ch => Sys2Proof.Machine.execLaunch ch s
  | .memcap ch => Sys2Proof.Machine.execMemcap ch s
  | .unknownCommand ch => Sys2Proof.Machine.execUnknownCommand ch s
  | .getVersion w => Sys2Proof.Machine.execGetVersion w s
  | .getCapabilities w => Sys2Proof.Machine.execGetCapabilities w s
  | .negotiateAlgorithms w => Sys2Proof.Machine.execNegotiateAlgorithms w s
  | .getDigests w => Sys2Proof.Machine.execGetDigests w s
  | .getCertificate w => Sys2Proof.Machine.execGetCertificate w s
  | .challenge w => Sys2Proof.Machine.execChallenge w s
  | .getMeasurements w => Sys2Proof.Machine.execGetMeasurements w s
  | .securedSession w => Sys2Proof.Machine.execSecuredSession w s
  | .hdmDecoderWrite base => Sys2Proof.Machine.execHdmDecoderWrite base s
  | .confirmationReportArrival r => Sys2Proof.Machine.execConfirmationReportArrival r s
  | .linkRetrain port => Sys2Proof.Machine.execLinkRetrain port s
  | .syncInterval port => Sys2Proof.Machine.execSyncInterval port s

end Sys2Proof.Machine
end

