-- ==== Sys2Proof/Machine/Issue.lean ====
section
/-! DEFINITION. One turn of the machine: the issue of one instruction of a slot, or an event; which turn comes where none is given; and
the context in which a single instruction is placed (spec/03_encoding.md R48, R76; spec/05_general_registers.md R139;
spec/06_control_threads.md R144, R160, R165). -/

namespace Sys2Proof.Machine
open Sys2Proof

noncomputable section

/-! ### Issuing -/

/-- A trap of the fetch at the pc, precisely there (R76, R437, R443). -/
def fetchFault (s : State) (t : Thread) (tr : Trap) : Out := raiseAt s t tr t.pc t.pc (.next s)

/-- Before these instructions the stores that the C stream holds are performed: every other one that accesses memory or gives or takes an
order. A push and an instruction on registers alone leave them held, and so do ERET, which reads its frame block with them, and TLBINV, which waits
where one used the page (R133, R370, R398; log entry 28). -/
def flushesFirst : Instr → Bool
  | .ld .. => true
  | .ldAcq .. => true
  | .stRel .. => true
  | .cLdI64 .. => true
  | .st .. => true
  | .cStI64 .. => true
  | .amoAdd .. => true
  | .amoMin .. => true
  | .amoMax .. => true
  | .amoAnd .. => true
  | .amoOr .. => true
  | .amoXor .. => true
  | .amoSwap .. => true
  | .amoCas .. => true
  | .amox .. => true
  | .loopn .. => true
  | .trap .. => true
  | .halt => true
  | .fence .. => true
  | .iflush .. => true
  | .isync => true
  | .mtsAspace .. => true
  | .mtsIshape .. => true
  | .spawn .. => true
  | .exit => true
  | .join .. => true
  | .leave .. => true
  | .barg .. => true
  | .yield .. => true
  | .wpush .. => true
  | .wpop .. => true
  | .wsteal .. => true
  | .claim .. => true
  | .waitw .. => true
  | .waitt .. => true
  | .sbind .. => true
  | .stbar .. => true
  | .waitc .. => true
  | .chwait .. => true
  | .nset .. => true
  | .tmapset .. => true
  | .tfetch .. => true
  | .tevict .. => true
  | .tlog .. => true
  | .tcompact .. => true
  | .tstat .. => true
  | .vpubl .. => true
  | .vpublWait .. => true
  | .vpublAt .. => true
  | .vpublWaitAt .. => true
  | .toksw .. => true
  | .tokswMin .. => true
  | .sttok .. => true
  | .vpin .. => true
  | .vunpin .. => true
  | _ => false

/-- A general register of the thread that issues is bound to a queue register, so that any instruction may push or pop (R254, R265, R390). -/
def joinsQueues (s : State) : Bool := (s.thread? s.cur).any fun t => t.q.toList.any fun q => q.general.isSome

/-- Execute an instruction; with `held` a plain store is executed without being performed yet. -/
def execute (held : Bool) (i : Instr) (s : State) : Out :=
  match held, i with
  | true, .st x o w b a j => storeSt true x o w b a j s
  | true, .cStI64 x d => storeCSt true x d s
  | _, i => exec i (if flushesFirst i || joinsQueues s then flushHeld s s.cur else s)

/-- Fetch, decode and execute the instruction at the pc (R48, R76). -/
def fetchIssue (held : Bool) (s : State) (t : Thread) : Out :=
  match fetchWord (t.who s) t.pc s with
  | .wait s' => .next s'
  | .bad tr s' => fetchFault s' t tr
  | .ok bits s' =>
    match decode bits with
    | some i => execute held i s'
    | none => fetchFault s' t { code := 1 }

/-- The next instruction of a running nest comes from the loop buffer; its indices are written before an iteration (R139). -/
def nestIssue (held : Bool) (s : State) (t : Thread) (n : Nest) : Out :=
  match t.enterIter, n.body[n.pos]? with
  | some u, some i => execute held i (s.setThread u)
  | _, _ => .next s

/-- The next instruction of a thread that can issue. -/
def nextIssue (held : Bool) (s : State) (t : Thread) : Out :=
  if t.awaitsTile then .next s
  else match t.nest with
    | some n => nestIssue held s t n
    | none => fetchIssue held s t

/-- A thread has issued: a YIELD of another thread of its facet no longer waits for it (R160). -/
def noteIssue (slot : Nat) (s : State) : State :=
  { s with threads := s.threads.map fun (u : Thread) =>
      { u with yieldFor := u.yieldFor.map fun l => l.filter fun x => x != slot } }

/-- The control pipeline serves a slot: a blocked thread tries its instruction again, a ready one issues its next (R165). -/
def serve (held : Bool) (slot : Nat) (s0 : State) : Out :=
  let s : State := { s0 with cur := slot }
  match s.thread? slot with
  | none => .next s
  | some t =>
    match t.run with
    | .blocked i => execute held i s
    | .ready => nextIssue held s t
    | _ => .next s

/-! ### Time (R5, R162, R165, R432, R433) -/

/-- The package comes to thread cycle `c`: 0.625 ns for each, and what slewing adds or takes, at most 200 ppm. TIME never decreases. -/
def advance (s : State) (c : Nat) : State :=
  if c ≤ s.cyc then s
  else
    let n := c - s.cyc
    let d : Int := max (-(Int.ofNat n)) (min s.ptpSlew (Int.ofNat n))
    let units := (Int.ofNat (5000 * n + s.frac) + d).toNat
    { s with cyc := c, time := BitVec.ofNat 64 (min (s.time.toNat + units / 8000) (2 ^ 64 - 1)), frac := units % 8000, ptpSlew := s.ptpSlew - d }

/-- Whether the thread, blocked in a WAITT or an STBAR, can resume. -/
def resumes (s : State) (t : Thread) : Bool :=
  match t.run with
  | .blocked (.stbar _ sb) => stbarReady s t sb.toNat
  | .blocked (.waitt a d) =>
    match execWaitt a d { s with cur := t.slot } with
    | .next s' => (s'.thread? t.slot).any fun u => u.run == .ready
    | _ => false
  | _ => false

/-- The thread can issue: it is ready, or its WAITT or STBAR is over. -/
def canIssueNow (s : State) (t : Thread) : Bool := t.issues || resumes s t

/-- Thread cycles until TIME can have reached a WAITT's target. -/
def cyclesTo (s : State) (target : Nat) : Nat := (8000 * (target - s.time.toNat) - s.frac + 5000) / 5001

/-- The last thread cycle in which the thread may still stand where it does: one that can issue issues within 4 cycles, those before it in
rotation first, and a WAITT resumes in time (R162, R165). -/
def lastCycle (s : State) (t : Thread) : Option Nat :=
  if canIssueNow s t then some (t.readyAt + 4 - rotation (s.facet t.facet).lastIssue (t.slot % 4))
  else match t.run with
    | .blocked (.waitt a _) => if s.time.ult (t.src a) then some (s.cyc + cyclesTo s (t.src a).toNat) else none
    | _ => none

/-- Nothing keeps the next step of the thread's oldest entry: it is complete and can commit, or it is a VSEND or a VRECV that can start or go on
(R430, R486). -/
def workReady (s : State) (t : Thread) : Bool :=
  t.vectorRuns && match t.queue.head? with
  | none => false
  | some e =>
    let starts := !e.started && nextEntry s t == some e && tokensReady t e (qForm e.instr)
    e.fault.isNone && (canCommit t e || match e.instr with
      | .vsend _ => starts || stepReady s t e
      | .vrecv _ => starts || stepReady s t e
      | _ => false)

/-- Thread cycles that such a step takes at most (log entry 12). -/
def workCycles : Nat := 64

/-- The last thread cycles in which a thread, or what works for it, may still stand where it does. -/
def dues (s : State) (t : Thread) : List Nat :=
  (lastCycle s t).toList ++ if workReady s t then [t.workAt + workCycles] else []

/-- Nothing has to come about before thread cycle `c` is over. -/
def mayReach (s : State) (c : Nat) : Bool := c ≤ s.cyc || s.threads.all fun t => (dues s t).all fun l => c ≤ l

/-- The thread cycle that the package comes to in a turn: as far as it may, and no thread keeps it (log entry 12). -/
def nextCycle (s : State) : Nat :=
  max s.cyc (((s.threads.map (dues s)).flatten).foldl min (s.cyc + Config.elapsed s.ctr))

/-! ### Rotation (R165) -/

/-- The thread may issue in cycle `c`: no other thread of its facet that can comes first in rotation. -/
def mayIssue (s : State) (t : Thread) (c : Nat) : Bool :=
  let place (u : Thread) : Nat := rotation (s.facet t.facet).lastIssue (u.slot % 4)
  mayReach s c && s.threads.all fun u =>
    u.facet != t.facet || u.slot == t.slot || !canIssueNow s u || c < u.readyAt || place t < place u

/-- The thread of a slot has used an issue turn: it is not just blocked, as it was or at an instruction without effect. -/
def usedTurn (slot : Nat) (s s' : State) : Bool :=
  match s.thread? slot, s'.thread? slot with
  | some t, some u =>
    (match u.run with
      | .blocked _ => false
      | _ => true)
    || u.arrived != t.arrived || u.draining != t.draining || u.amo.isSome != t.amo.isSome
  | _, _ => true

/-- The facet has issued for a slot in this thread cycle. -/
def closeIssue (slot : Nat) (s s' : State) : State :=
  if !usedTurn slot s s' then s'
  else
    let f := slot / Config.slotsPerFacet
    let s' := noteIssue slot (s'.setFacet f { s'.facet f with lastIssue := slot % 4, nextIssue := s.cyc + 1 })
    { s' with threads := s'.threads.map fun (u : Thread) => if u.slot = slot then { u with readyAt := s.cyc + 1 } else u }

/-- What a slot's thread does in its issue turn: in the first thread cycle in which its facet and itself are free, where it may. -/
def gated (slot : Nat) (s : State) (k : State → Out) : Out :=
  match s.thread? slot with
  | none => .next s
  | some t =>
    let c := max s.cyc (max (s.facet t.facet).nextIssue t.readyAt)
    if !t.active? || t.awaitsTile || !mayIssue s t c then .next s
    else
      let s1 := advance s c
      match k s1 with
      | .next s' => .next (closeIssue slot s1 s')
      | r => r

/-- Threads that have come to be able to issue can do so from this cycle on; and the same of their oldest entries, or where a chunk has gone. -/
def stampReady (s s' : State) : State :=
  { s' with threads := s'.threads.map fun (u : Thread) =>
      let before (f : State → Thread → Bool) : Bool := (s.thread? u.slot).any (f s)
      let u := if canIssueNow s' u && !before canIssueNow then { u with readyAt := s'.cyc } else u
      if workReady s' u && (!before workReady || s.sends != s'.sends) then { u with workAt := s'.cyc } else u }

/-! ### Events -/

/-- The rows of the opcode table that are events and commands, and no instructions. -/
def isEvent : Instr → Bool
  | .amoReply .. => true
  | .fenceComplete .. => true
  | .isyncComplete .. => true
  | .tlbinvComplete .. => true
  | .staggeredRelease .. => true
  | .waitwWake .. => true
  | .waittWake .. => true
  | .stbarComplete .. => true
  | .waitcWake .. => true
  | .chwaitWake .. => true
  | .vpublWaitResume .. => true
  | .tokswMinResume .. => true
  | .versionPinRelease .. => true
  | .aallocWaitBind .. => true
  | .chordCommandPlace .. => true
  | .chordRunStart .. => true
  | .chordRunEnd .. => true
  | .tmovComplete .. => true
  | .collectiveChunkArrival .. => true
  | .collectiveGo .. => true
  | .collectiveAbort .. => true
  | .messageArrival .. => true
  | .endpointChunkSend .. => true
  | .slotFreeNotice .. => true
  | .fabricErrorTimeout .. => true
  | .linkFlitRetry .. => true
  | .entryStart .. => true
  | .entryCommit .. => true
  | .vectorQueuePushResume .. => true
  | .queueRegisterResume .. => true
  | .streamStripRead .. => true
  | .writeStreamStore .. => true
  | .tileLogCompaction .. => true
  | .tileArrival .. => true
  | .tileLeave .. => true
  | .combineDrain .. => true
  | .slotPlacement .. => true
  | .preemption .. => true
  | .contextSaveDone .. => true
  | .lmaxExpiry .. => true
  | .latticeIdleTimeout .. => true
  | .storageErrorDetected .. => true
  | .hostMemAccess .. => true
  | .powerOnReset .. => true
  | .expanderLost .. => true
  | .fuondLinkFailed .. => true
  | .ptpMessage .. => true
  | .ptpLockLost => true
  | .ident .. => true
  | .partset .. => true
  | .lmax .. => true
  | .vtabRegister .. => true
  | .vtabRemove .. => true
  | .planld .. => true
  | .planfr .. => true
  | .slew .. => true
  | .pkgid .. => true
  | .dbgAttach .. => true
  | .dbgDetach .. => true
  | .dbgResume .. => true
  | .dbgSave .. => true
  | .dbgRestore .. => true
  | .status .. => true
  | .fwupd .. => true
  | .softc .. => true
  | .launch .. => true
  | .memcap .. => true
  | .unknownCommand .. => true
  | .getVersion .. => true
  | .getCapabilities .. => true
  | .negotiateAlgorithms .. => true
  | .getDigests .. => true
  | .getCertificate .. => true
  | .challenge .. => true
  | .getMeasurements .. => true
  | .securedSession .. => true
  | .hdmDecoderWrite .. => true
  | .confirmationReportArrival .. => true
  | .linkRetrain .. => true
  | .syncInterval .. => true
  | _ => false

/-- The slot whose thread an event lets execute its blocked instruction again. -/
def wakeSlot : Instr → Option Nat
  | .fenceComplete t => some t
  | .isyncComplete t => some t
  | .tlbinvComplete t => some t
  | .staggeredRelease t => some t
  | .waitwWake t => some t
  | .waittWake t => some t
  | .stbarComplete t => some t
  | .waitcWake t => some t
  | .chwaitWake t => some t
  | .vpublWaitResume t => some t
  | .tokswMinResume t => some t
  | .vectorQueuePushResume t => some t
  | _ => none

/-- Where a drain has ended, the instruction that it belongs to is executed at once: an ST.REL is stored as its drain completes (R406). -/
def afterDrain (slot : Nat) (s : State) : Out → Out
  | .next s' =>
    match s.thread? slot, s'.thread? slot with
    | some t, some u =>
      match u.run with
      | .blocked i => if t.draining && !u.draining && drainFence t == none then execute false i { s' with cur := slot } else .next s'
      | _ => .next s'
    | _, _ => .next s'
  | r => r

/-- An event comes about; an instruction that is no event runs only where it is fetched. -/
def happen (i : Instr) (s : State) : Out :=
  if !isEvent i then .next s
  else match wakeSlot i, i with
    | some slot, _ => gated slot s (exec i)
    | none, .combineDrain t => afterDrain t s (exec i s)
    | none, _ => exec i s

/-! ### Stores that are half performed (R276, R391, R400) -/

/-- Bytes in their places. -/
def writeEach (m : Memory) (l : List (Nat × BitVec 8)) : Memory := l.foldl (fun m p => m.write p.1 p.2) m

/-- The rest of a half performed store is performed. -/
def mend (s : State) : State :=
  match s.torn with
  | some x => { s with mem := writeEach s.mem x.rest, torn := none }
  | none => s

/-- The bytes that `mask` names of the `j`-th store that a thread holds or owes on a stream are performed. -/
def tearStore (s : State) (w : Thread) (side : Side) (j : Nat) (mask : BitVec 64) : State :=
  match w.takeStore side j with
  | none => s
  | some (x, u) =>
    let l := (List.range x.2.length).map fun i => (i, x.1 + i, x.2.getD i 0)
    let part (now : Bool) : List (Nat × BitVec 8) := (l.filter fun p => mask.getLsbD p.1 == now).map Prod.snd
    { s with mem := writeEach s.mem (part true), torn := some ⟨w.slot, side, x.1, x.2.length, part false⟩ }.setThread u

/-- The address and the width of a plain load. -/
def loadOf (t : Thread) : Instr → Option (BitVec 64 × Nat)
  | .ld x i w a _ => some (t.src a + offM x i, eBytes w)
  | .ldAcq _ w a _ => some (t.src a, eBytes w)
  | .cLdI64 x _ => some (t.src 2 + BitVec.ofNat 64 (8 * x.toNat), 8)
  | _ => none

/-- The instruction that a thread issues next. -/
def nextInstr (s : State) (t : Thread) : Option Instr :=
  match t.run, t.nest with
  | .blocked i, _ => some i
  | _, some n => n.body[n.pos]?
  | _, none =>
    match fetchWord (t.who s) t.pc s with
    | .ok bits _ => decode bits
    | _ => none

/-- The address and the width of the element that the vector side loads next. -/
def nextElem (s : State) (t : Thread) : Option (BitVec 64 × Nat) :=
  (nextEntry s t).bind fun e =>
    let c := e.inner t
    let at' (o : MOps) (fm : MForm) : Option (BitVec 64 × Nat) :=
      let f := MFmt.ofCode o.f.toNat
      some (elemAddr t c o fm f c.vstart.toNat, f.bytes)
    match qForm c.instr with
    | .m o .load => at' o .unit
    | .m o .loadS => at' o .strided
    | .m o .loadX => at' o .indexed
    | _ => none

/-- The same of the next element of a strip of the entry at place `k`. -/
def nextStrip (t : Thread) (k : Nat) : Option (BitVec 64 × Nat) :=
  t.queue[k]?.bind fun e => (streamSrcs e (e.info t.splitV)).head?.map fun x =>
    (x.1.desc.addr (x.2.2 + (earlyStrip e x.1 e.vstart.toNat).1.length), x.1.fmt.bytes)

/-- The first access of a turn, where it may see or pass a half performed store: its slot, its stream, its key and its width. -/
def firstAccess (s : State) (turn : Turn) : Option (Nat × Side × Nat × Nat) :=
  let load (slot : Nat) (side : Side) (f : Thread → Option (BitVec 64 × Nat)) : Option (Nat × Side × Nat × Nat) :=
    (s.thread? slot).bind fun t => (f t).bind fun x => match (locate s (t.who s) x.1 .read false).1 with
      | .at (.mem key) => some (slot, side, key, x.2)
      | _ => none
  let store (slot : Nat) (side : Side) (j : Nat) : Option (Nat × Side × Nat × Nat) :=
    (s.thread? slot).bind fun t => (t.takeStore side j).map fun x => (slot, side, x.1.1, x.1.2.length)
  match turn with
  | .issue slot => load slot .c fun t => (nextInstr s t).bind (loadOf t)
  | .issueHeld slot => load slot .c fun t => (nextInstr s t).bind (loadOf t)
  | .part slot _ => load slot .v (nextElem s)
  | .partHeld slot _ => load slot .v (nextElem s)
  | .stripPart slot k _ => load slot .a fun t => nextStrip t k
  | .performStore slot j => store slot .c j
  | .performV slot j => store slot .v j
  | .performA slot j => store slot .a j
  | _ => none

/-- A half performed store may stay so in a turn that begins with an access of another stream, of another width, to one of its bytes; before any
other turn the rest of it is performed. -/
def mendFor (turn : Turn) (s : State) : State :=
  match s.torn with
  | none => s
  | some x =>
    if (firstAccess (mend s) turn).any fun a =>
      (a.1 != x.slot || a.2.1 != x.side) && a.2.2.2 != x.width && overlap a.2.2.1 a.2.2.2 x.key x.width then s
    else mend s

/-! ### Turns -/

/-- What a turn does. -/
def doTurn (t : Turn) (s : State) : Out :=
  match t with
  | .issue slot => gated slot s (serve false slot)
  | .issueHeld slot => gated slot s (serve true slot)
  | .performStore slot j => withSlot slot s fun w => performTaken s w .c j
  | .performV slot j => withSlot slot s fun w => performTaken s w .v j
  | .performA slot j => withSlot slot s fun w => performTaken s w .a j
  | .tear slot side j mask => withSlot slot s fun w => tearStore s w side j mask
  | .event i => happen i s
  | .part slot n => withSlot slot s fun w => startUpTo s w (some (n + 1))
  | .partHeld slot n => withSlot slot s fun w => let u := holdStores s w; startUpTo (s.setThread u) u (some (n + 1))
  | .chained slot n => withSlot slot s fun w => chainStep s w (n + 1)
  | .stripPart slot k n => withSlot slot s fun w => stripUpTo s w k n
  | .aheadOf slot blk k => withSlot slot s fun w => streamAhead s w blk k
  | .movePart id n => .next (moveStepUpTo s id n)
  | .chordPart bank n => .next (chordStep s bank n)
  | .cachePte slot level va => withSlot slot s fun w => cacheEntry s w.aspace va level
  | .dropPte k => .next { s with tlb := s.tlb.eraseIdx k }
  | .copyCode slot va buffer => .next (copyCode s slot va buffer)
  | .dropCode k => .next { s with code := s.code.eraseIdx k }

/-- Take one turn. -/
def takeTurn (t : Turn) (s : State) : Out :=
  let s := mendFor t s
  match doTurn t s with
  | .next s' => .next (stampReady s s')
  | r => r

/-! ### The turns that may come next (log entry 4) -/

/-- An event where it can do something. -/
def when (b : Bool) (i : Instr) : List Turn := if b then [.event i] else []

/-- The lowest slot of the facet with the fewest threads among those with a free slot (R149). -/
def bestSlot (s : State) (p : Partition) : Option Nat :=
  let fs := (List.range Config.facets).filter fun f => p.hasFacet f && !(s.facet f).failing
  let cand := fs.filterMap fun f =>
    ((List.range Config.slotsPerFacet).find? fun j => slotFree s p (Config.slotsPerFacet * f + j)).map fun j =>
      (runningOn s f, Config.slotsPerFacet * f + j)
  (cand.foldl (fun (best : Option (Nat × Nat)) x => match best with
    | none => some x
    | some b => if x.1 < b.1 then some x else some b) none).map Prod.snd

/-- The report that a member of a collective has ready (R426). -/
def readyReport (s : State) (t : Thread) : List Turn :=
  match collAt t with
  | none => []
  | some c =>
    match checksOf s c with
    | none => []
    | some m =>
      when (!((apexOf s c.key c.seq).reports.any fun x => x.1 == c.rank))
        (.confirmationReportArrival { key := c.key, seq := c.seq, rank := c.rank, matched := m })

/-- The apex here has a decision for the thread's collective. -/
def hears (s : State) (t : Thread) (d : Bool) : Bool :=
  match collAt t with
  | some c => s.apexes.any fun a => a.key == c.key && a.seq == c.seq && a.decision == some d && !a.reached.contains c.rank
  | none => false

/-- A fabric instruction of the thread has run for its plan's ABTNS (R428, R430). -/
def timedOut (s : State) (t : Thread) : Bool :=
  match runningFabric t with
  | some (e, h) => (planOf s t.part h).abtns ≤ s.time.toNat - e.began.toNat
  | none => false

/-- Turns of a thread and of what works for it. -/
def threadTurns (s : State) (t : Thread) : List Turn :=
  when (!t.queue.isEmpty) (.entryCommit t.slot) ++ when (t.queue.any fun e => !e.done) (.entryStart t.slot)
    ++ when (!t.owed.isEmpty) (.writeStreamStore t.slot) ++ (if t.cbuf.isEmpty then [] else [.performStore t.slot 0])
    ++ (if t.vbuf.isEmpty then [] else [.performV t.slot 0])
    ++ when t.draining (.combineDrain t.slot)
    ++ when t.amo.isSome (.amoReply t.slot) ++ when t.run.isSaving (.contextSaveDone t.slot) ++ when t.evict (.preemption t.slot)
    ++ when (timedOut s t) (.fabricErrorTimeout t.slot 0xFF) ++ readyReport s t
    ++ when (hears s t true) (.collectiveGo t.slot) ++ when (hears s t false) (.collectiveAbort t.slot)
    ++ (if t.active? then [.issue t.slot] else [])

/-- Turns of a partition: tiles, old bindings, placement, pre-emption. -/
def partTurns (s : State) (n : Nat) : List Turn :=
  let p := s.parts.toList.getD n {}
  (p.transit.map fun t => .event (if t.arriving then .tileArrival n t.win t.tile else .tileLeave n t.win t.tile))
    ++ (p.compacting.map fun c => .event (.tileLogCompaction n c.1 c.2))
    ++ (List.range p.oldVers.length).map (fun k => Turn.event (.versionPinRelease n k))
    ++ (if (waiting s n p).isEmpty then [] else
      match bestSlot s p with
      | some x => [.event (.slotPlacement n x)]
      | none => (s.threads.filter fun t => t.part == n).map fun t => .event (.preemption t.slot))

/-- Banks whose chords have something to do. -/
def busyBanks (s : State) : List Nat :=
  (s.chords.map (fun c => c.bank) ++ (s.chruns.map fun o => o.unplaced.map ChordCmd.bank).flatten).dedup

/-- What lies in a receiver's slots reaches a VRECV that waits for it (R430). -/
def recvTurns (s : State) : List Turn :=
  (s.inbox.filter fun b => (b.arrived == b.total || (0 < b.held && !memberElsewhere s b.msg.key b.msg.src.toNat))
    && s.threads.any fun t => (runningRecv t b.msg).isSome).map fun b => .event (.messageArrival b.msg)

/-- Turns of the engines and the fabric. -/
def engineTurns (s : State) : List Turn :=
  recvTurns s ++
  (s.moves.map fun m => .event (.tmovComplete m.id))
    ++ ((busyBanks s).map fun b => [Turn.event (.chordRunEnd b), .event (.chordRunStart b), .event (.chordCommandPlace b)]).flatten
    ++ (when (s.chruns.any fun o => o.ended == o.total) (.chordRunEnd 0))
    ++ (((s.sends.map fun x => x.slot / Config.slotsPerFacet).dedup).map fun f => Turn.event (.endpointChunkSend f))
    ++ ((List.range s.fstreams.length).map fun h => Turn.event (.slotFreeNotice h))
    ++ (s.facets.filter fun x => !x.2.waiters.isEmpty).map fun x => .event (.aallocWaitBind x.1)

/-- Every turn that the package can take of itself. -/
def ownTurns (s : State) : List Turn :=
  (s.threads.map (threadTurns s)).flatten ++ engineTurns s ++ ((List.range 16).map (partTurns s)).flatten

/-- The turn that comes where the agenda gives none: the package's own turns in rotation. -/
def ownTurn (s : State) : Turn :=
  let l := ownTurns s
  l.getD (s.ctr % l.length) (.issue s.cur)

/-- The turn that comes next. -/
def turnOf (s : State) : Turn := s.agenda.headD (ownTurn s)

/-- The turn issues for a slot: it takes its time itself. -/
def Turn.issues : Turn → Bool
  | .issue _ => true
  | .issueHeld _ => true
  | .event i => (wakeSlot i).isSome
  | _ => false

/-- A turn begins: time has passed, and the turn leaves the agenda (R432, log entry 12). -/
def beginTurn (s : State) : State :=
  let s' : State := if (turnOf s).issues then s else stampReady s (advance s (nextCycle s))
  { s' with ctr := s'.ctr + 1, agenda := s'.agenda.tail }

/-! ### A single instruction, placed to run next -/

def bootRoot : Nat := 0x1000000
def bootPc : Nat := 0x10000

/-- A partition of every cluster, with a save area. -/
def bootPart : Partition :=
  { valid := true, clusters := BitVec.allOnes 256, savebase := 0x2000000, uva := 0x40000000, uwlog := 16, cva := 0x40400000,
    launches := [{ id := 1, order := 0, entry := BitVec.ofNat 64 bootPc, args := 0, count := 1, group := 0, prio := 0, preempt := false,
                   det := false, pe := false, aspace := 0, next := 1 }] }

/-- A thread in user mode at the instruction, under an identity map. -/
def bootThread : Thread :=
  { slot := 0, part := 0, launch := 1, rank := 0, pc := BitVec.ofNat 64 bootPc,
    aspace := BitVec.ofNat 64 (10 * 2 ^ 60 + bootRoot / 4096) }

/-- The eight bytes of an instruction at `bootPc`, a page table whose one leaf maps every user address to itself, and the turn that
issues it, for which the facet is free (log entry 27). -/
def placeWord (s : State) (bits : Nat) : State :=
  let m := (s.mem.writeN bootRoot 8 0xDF).writeN bootPc 8 bits
  { s with mem := m, vtab := none, vgiven := [], torn := none, tlb := [], code := [], agenda := .issue 0 :: s.agenda,
           threads := bootThread :: s.threads.filter fun t => t.slot != 0 }.setFacet 0 { s.facet 0 with lastIssue := 3, nextIssue := 0 }
    |>.setPart 0 bootPart

end
end Sys2Proof.Machine
end

