-- ==== Sys2Proof/Machine/Step.lean ====
section
/-! DEFINITION. One step of the machine: a turn begins, and the turn that comes next is taken. -/

namespace Sys2Proof.Machine
open Sys2Proof

noncomputable section

/-- One step. -/
def step (s : State) : Host.Outcome State Fault Refusal := takeTurn (turnOf s) (beginTurn s)

/-- `s` with the instruction whose `nbits` bits are `w` placed where the very next step fetches (log entry 27). -/
def State.withFetchWord (s : State) (nbits w : Nat) : State := placeWord s (w % 2 ^ nbits)

end
end Sys2Proof.Machine
end

