-- ==== Sys2Proof/Safety.lean ====
section
/-! DEFINITION. The terms that statements about the machine use: an instruction that finds nothing to wait for, the state after an
instruction that completes, and properties that every step keeps. -/

namespace Sys2Proof.Machine
open Sys2Proof

noncomputable section

/-- Thread `t` is the one that issues, and an instruction that reads `srcs` and writes `dsts` finds nothing to wait for: no AALLOC under
way (R228), no register that a queue entry will write (R192), an entry in the queue register of each source and room in that of each
result (R262, R264). -/
structure Issues (s : State) (t : Thread) (srcs dsts : List Reg) : Prop where
  here : s.thread? s.cur = some t
  active : t.active? = true
  noTile : t.awaitsTile = false
  settled : (srcs ++ dsts).any t.isPending = false
  entries : ((t.srcQueues srcs).any fun q => (t.qAt q).entries.isEmpty) = false
  room : (dsts.any (t.dstFull (t.srcQueues srcs))) = false

/-- The thread as an issued instruction finds it: ready, with one entry popped from each queue register that its sources name. -/
def Thread.issued (t : Thread) (srcs : List Reg) : Thread := ({ t with run := .ready } : Thread).popQs (t.srcQueues srcs)

/-- The thread that has completed an instruction of `len` bytes and goes on to the next one. -/
def Thread.past (u : Thread) (i : Instr) : Thread :=
  ({ u with arrived := false, drainedAt := u.drainedAt.filter (· != u.pc), yieldFor := none, pubV := none } : Thread).advance (instrLen i)

/-- The state after thread `u` has completed instruction `i`. -/
def retired (s : State) (u : Thread) (i : Instr) : State := s.setThread (u.past i)

/-- The thread `t` that issues completes `i` with `v` in `d`, and nothing else changes but what it popped. -/
def Yields (s : State) (t : Thread) (srcs : List Reg) (d : Reg) (i : Instr) (v : BitVec 64) : Prop :=
  exec i s = .next (retired s ((t.issued srcs).result d v) i)

/-- An instruction answers a next state. -/
def Completes (i : Instr) (s : State) : Prop := ∃ u, exec i s = .next u

/-- The general registers that a queued instruction captures (R163). -/
def capsOf (i : Instr) : List Reg :=
  let c := (qForm i).caps
  c.1.toList ++ c.2.1.toList ++ c.2.2.toList

/-- What the push of queued instruction `i0` of thread `t` asks (R163): its captures find nothing to wait for, no earlier entry will write its
general register (R192), no replay runs from a chain buffer it empties (R219), a recording takes it (R219, R220), its own push checks and
those on VTYPE, VL, handles, streams and queue registers are met (R189, R226, R257, R263), the address of its completion object is
aligned (R283, R319), and the queue has a place. -/
structure MayPush (s : State) (t : Thread) (i0 : Instr) : Prop where
  issues : Issues s t (capsOf (expand t.lvd i0)) []
  result : (pendingReg (expand t.lvd i0)).any t.isPending = false
  buffer : bufferBusy t (qForm (expand t.lvd i0)) = false
  record : recordBad t (expand t.lvd i0) (qForm (expand t.lvd i0)) = false
  chain : chainOk t (capture s t (expand t.lvd i0)) (qForm (expand t.lvd i0)) = true
  handle : handleOk t (qForm (expand t.lvd i0)) = true
  config : ((capture s t (expand t.lvd i0)).info t.splitC).passes t.splitC = true
  bound : boundOk t (capture s t (expand t.lvd i0)) ((capture s t (expand t.lvd i0)).info t.splitC) = true
  object : ∀ a, objectAddr (capture s t (expand t.lvd i0)) (qForm (expand t.lvd i0)) = some a → aligned a 8 = true
  room : t.queue.length < 64

/-- `i0` is pushed (R163): one entry stands behind the others with the instruction and what it captured, and of the thread only the control
thread's own copies change (R73, R181, R219, R226, R255, R417): the split and VL of VRECONF, the view of the handle of AFREE. -/
def Pushes (s : State) (t : Thread) (i0 : Instr) : Prop :=
  let i := expand t.lvd i0
  let value (r : Option Reg) : BitVec 64 := match r with
    | some r => t.src r
    | none => 0
  ∃ (u : Thread) (e : QEntry), exec i0 s = .next (retired s u i0) ∧ u.queue = t.queue ++ [e] ∧ u.pushSeq = t.pushSeq + 1
    ∧ e.instr = i ∧ e.pc = t.pc ∧ e.seq = t.pushSeq ∧ e.started = false ∧ e.done = false ∧ e.vstart = 0
    ∧ e.vl = t.vl ∧ e.vtype = t.vtype ∧ e.frm = t.frm ∧ e.xrm = t.xrm ∧ e.seed = t.seed ∧ e.ver = (s.partOf t).ver
    ∧ e.ga = value (qForm i).caps.1 ∧ e.gb = value (qForm i).caps.2.1 ∧ e.gc = value (qForm i).caps.2.2
    ∧ e.image = t.image (qForm i).img
    ∧ u = { t.issued (capsOf i) with
        queue := u.queue, pushSeq := u.pushSeq, lvd := u.lvd, n := u.n, f := u.f, view0 := u.view0, view1 := u.view1,
        splitC := u.splitC, vl := u.vl, chain := u.chain, recording := u.recording, streams := u.streams }
    ∧ ((∀ o, i ≠ .vreconf o) → u.splitC = t.splitC ∧ u.vl = t.vl)
    ∧ ((∀ o, i ≠ .afree o) → u.view0 = t.view0 ∧ u.view1 = t.view1)

/-- Nothing of the vector side of thread `t` stands in the way of a trap, and it holds no store: its trap is taken at once, as it is (R438,
R449). -/
structure AtRest (s : State) (t : Thread) : Prop where
  empty : t.queue = []
  placed : unplaced s t = false
  drained : t.draining = false
  settled : t.vbuf = []

/-! ### Turns -/

/-- The state at the start of a turn, before time passes: the agenda and the counter have gone on (log entries 4 and 5). -/
def turnBase (s : State) : State := { s with ctr := s.ctr + 1, agenda := s.agenda.tail }

/-- The thread cycle in which thread `t` issues next: its facet and itself are free (R165). -/
def issueCycle (s : State) (t : Thread) : Nat := max s.cyc (max (s.facet t.facet).nextIssue t.readyAt)

/-- The state in which thread `t` issues in its turn. -/
def served (s : State) (t : Thread) : State := { advance (turnBase s) (issueCycle s t) with cur := t.slot }

/-- The state after the turn of thread `t` in which it came to `u`. -/
def turnEnd (s : State) (t : Thread) (u : State) : State :=
  stampReady (turnBase s) (closeIssue t.slot (advance (turnBase s) (issueCycle s t)) u)

/-- The state in which an event that is no thread's turn comes about: time has passed. -/
def eventTime (s : State) : State := turnBase (stampReady s (advance s (nextCycle s)))

/-- Thread `t` is on its slot, the control pipeline serves it, and its turn in rotation has come (R165, R228). -/
structure MayServe (s : State) (t : Thread) : Prop where
  here : s.thread? t.slot = some t
  active : t.active? = true
  noTile : t.awaitsTile = false
  first : mayIssue (turnBase s) t (issueCycle s t) = true

/-! ### Vector effects -/

/-- A flag of a thread, by its place among the flags of a result: FFLAGS, then SAT. -/
def Thread.flag (t : Thread) (j : Nat) : Bool := if j = 6 then t.sat else t.fflags.getLsbD j

/-- Thread `u` is `t` with the elements of group `d` from `lo` to `stop` written (R174, R175): an active one takes `r`, an inactive one is kept,
or zero under MP; those below stay, those from `stop` on too, or are zero where they are a tail under TP; the active elements raise their
flags, and no other register changes. -/
structure Written (t u : Thread) (e : QEntry) (gov : Option Nat) (d : Opnd) (lo stop : Nat) (full : Bool) (r : Nat → Nat × Flg) : Prop where
  active : ∀ k, lo ≤ k → k < stop → t.active gov k = true → u.el d k = (r k).1 % 2 ^ d.ew
  inactive : ∀ k, lo ≤ k → k < stop → t.active gov k = false → u.el d k = if maskZero e.vtype then 0 else t.el d k
  below : ∀ k, k < lo → u.el d k = t.el d k
  tail : ∀ k, stop ≤ k → k < d.cap t.splitV → u.el d k = if full && tailZero e.vtype then 0 else t.el d k
  others : stop ≤ d.cap t.splitV →
    ∀ b, b < d.reg.toNat * rlenOf t.splitV ∨ (d.reg.toNat + d.grp) * rlenOf t.splitV ≤ b → Cells.get 0 u.vreg b = Cells.get 0 t.vreg b
  flags : ∀ j, j < 7 → (u.flag j = true ↔ t.flag j = true
    ∨ ∃ k, lo ≤ k ∧ k < stop ∧ t.active gov k = true ∧ (r k).2.getLsbD j = true)
  rest : u = { t with vreg := u.vreg, hw := u.hw, fflags := u.fflags, sat := u.sat, queue := u.queue }

/-- Thread `u` is `t` with the bits of mask `m` from VSTART to `stop` written as R202 says; the active elements raise their flags. -/
structure MaskWritten (t u : Thread) (e : QEntry) (gov : Option Nat) (m stop : Nat) (full : Bool) (r : Nat → Bool × Flg) : Prop where
  bits : ∀ k, k < 8192 → u.maskBit m k =
    if e.vstart.toNat ≤ k ∧ k < stop then (if t.active gov k then (r k).1 else !maskZero e.vtype && t.maskBit m k)
    else if stop ≤ k ∧ full = true ∧ tailZero e.vtype = true then false else t.maskBit m k
  others : ∀ j, j ≠ m → u.mask j = t.mask j
  flags : ∀ j, j < 7 → (u.flag j = true ↔ t.flag j = true
    ∨ ∃ k, e.vstart.toNat ≤ k ∧ k < stop ∧ t.active gov k = true ∧ (r k).2.getLsbD j = true)
  rest : u = { t with m := u.m, fflags := u.fflags, sat := u.sat }

/-- The key of an address whose 4 KiB page lies in frame `frame`. -/
def placeOf (frame : Nat → Nat) (va : BitVec 64) : Nat := 4096 * frame (va.toNat / 4096) + va.toNat % 4096

/-- The level of the page on which an access lies: a leaf's, or 4 KiB where no page table translates it (R361). -/
def Want.level (s : State) (w : Who) (a : Want) : Nat := if unpaged s w a.va a.kind then 0 else leafLevel s w.aspace a.va a.kind

/-- The translation of an access leads to its page's frame and changes nothing; the frames of a page above 4 KiB lie in a row. -/
def Want.placed (s : State) (w : Who) (frame : Nat → Nat) (a : Want) : Prop :=
  locate s w a.va a.kind a.log = (.at (.mem (placeOf frame a.va)), s)
    ∧ let n := 512 ^ a.level s w
      let page := a.va.toNat / 4096
      ∀ q, q / n = page / n → frame q + page = frame page + q

/-- An access is aligned, and its translation leads to its page's frame. -/
def Want.found (s : State) (w : Who) (frame : Nat → Nat) (a : Want) : Prop := aligned a.va a.bytes = true ∧ a.placed s w frame

/-- An access is misaligned, or its translation fails. -/
def Want.fails (s : State) (w : Who) (a : Want) (tr : Trap) : Prop :=
  (aligned a.va a.bytes = false ∧ tr = { code := 2, addr := a.va, acc := a.kind.code })
    ∨ (aligned a.va a.bytes = true ∧ locate s w a.va a.kind a.log = (.bad tr, s))

/-- Of the accesses, the first of element `f` that fails raises `tr`, and none of an earlier element fails (R274, R364). -/
def FailsAt (s : State) (w : Who) (frame : Nat → Nat) (as : List Want) (f : Nat) (tr : Trap) : Prop :=
  ∃ before a after, as = before ++ a :: after ∧ a.elem = f ∧ a.fails s w tr ∧ (∀ b ∈ before, b.found s w frame ∧ b.elem ≤ f)
    ∧ (∀ b ∈ before, b.kind = a.kind → b.va.toNat / (4096 * 512 ^ b.level s w) ≠ a.va.toNat / (4096 * 512 ^ b.level s w))
    ∧ ∀ b ∈ after, f ≤ b.elem ∧ (b.found s w frame ∨ ∃ tr', b.fails s w tr')

/-- An entry begins its elements: nothing of it is performed or read ahead, and its stores are performed as it runs. -/
def QEntry.fresh (e : QEntry) : Prop := e.live = false ∧ e.pages = [] ∧ e.stopAt = none ∧ e.late = false

/-- Thread `u` holds beside what it shares with `v` the pages that entry `e` may use later (R364, R371). -/
def Keeps (v u : Thread) (e : QEntry) : Prop := ∃ ps b, u = v.keepPages e ps b

/-! ### Frames -/

/-- `u` differs from `s` at most in the thread of slot `k`; every byte of memory reads as before. -/
structure OnlyThread (s u : State) (k : Nat) : Prop where
  rest : u = { s with threads := u.threads }
  mem : ∀ a, u.mem.read a = s.mem.read a
  others : ∀ j, j ≠ k → u.thread? j = s.thread? j

/-- Thread `t` with what issuing and ending any instruction may change taken from `u`: where it continues, whether it waits, the
general registers and the queue registers. Every status register, flag, special register and vector register is that of `t`. -/
def Thread.issuing (t u : Thread) : Thread :=
  { t with pc := u.pc, nest := u.nest, run := u.run, g := u.g, q := u.q, arrived := u.arrived, drainedAt := u.drainedAt,
           yieldFor := u.yieldFor, pubV := u.pubV }

/-- Memory is in its canonical form. -/
def MemOk (s : State) : Prop := s.mem.wf = true

/-- Every step keeps the property. -/
def Kept (p : State → Prop) : Prop := ∀ s u, p s → step s = .next u → p u

end
end Sys2Proof.Machine
end

