-- ==== Sys2Proof/Certificates/Slice0/Obligations.lean ====
section
/-! DEFINITION. The statements about this machine. -/

open Sys2Proof Sys2Proof.Machine

/-! ### General registers -/

/-- R120, R121: each integer instruction on registers completes with the value of the table; CLZ names the place of the highest one bit, CTZ
that of the lowest, POPC how many there are. Division never traps, also where the divisor is zero and for the most negative number over −1. -/
def Obligations.IntegerRegisterResults : Prop :=
  (∀ (s : State) (t : Thread) (b a d : Reg), Issues s t [a, b] [d] →
     let x := t.src a
     let y := t.src b
     ∀ p ∈ [(Instr.add b a d, x + y), (.sub b a d, x - y), (.mul b a d, x * y),
       (.mulh b a d, BitVec.ofInt 64 (x.toInt * y.toInt / 2 ^ 64)), (.mulhw b a d, BitVec.ofNat 64 (x.toNat * y.toNat / 2 ^ 64)),
       (.div b a d, if y = 0 then BitVec.allOnes 64 else BitVec.ofInt 64 (Int.tdiv x.toInt y.toInt)),
       (.divw b a d, if y = 0 then BitVec.allOnes 64 else BitVec.ofNat 64 (x.toNat / y.toNat)),
       (.rem b a d, if y = 0 then x else BitVec.ofInt 64 (Int.tmod x.toInt y.toInt)),
       (.remw b a d, if y = 0 then x else BitVec.ofNat 64 (x.toNat % y.toNat)),
       (.and b a d, x &&& y), (.or b a d, x ||| y), (.xor b a d, x ^^^ y),
       (.shl b a d, x <<< (y.toNat % 64)), (.shr b a d, x >>> (y.toNat % 64)), (.sar b a d, x.sshiftRight (y.toNat % 64)),
       (.slt b a d, if x.toInt < y.toInt then 1 else 0), (.sltw b a d, if x.toNat < y.toNat then 1 else 0),
       (.min b a d, if x.toInt ≤ y.toInt then x else y), (.max b a d, if x.toInt ≤ y.toInt then y else x),
       (.minw b a d, if x.toNat ≤ y.toNat then x else y), (.maxw b a d, if x.toNat ≤ y.toNat then y else x)],
       Yields s t [a, b] d p.1 p.2)
  ∧ (∀ (s : State) (t : Thread) (a d : Reg), Issues s t [a] [d] →
       let x := t.src a
       (∃ n, Yields s t [a] d (.clz a d) (BitVec.ofNat 64 n) ∧ (x = 0 → n = 64)
         ∧ (x ≠ 0 → n < 64 ∧ x.getLsbD (63 - n) = true ∧ ∀ k, 63 - n < k → x.getLsbD k = false))
       ∧ (∃ n, Yields s t [a] d (.ctz a d) (BitVec.ofNat 64 n) ∧ (x = 0 → n = 64)
         ∧ (x ≠ 0 → n < 64 ∧ x.getLsbD n = true ∧ ∀ k, k < n → x.getLsbD k = false))
       ∧ Yields s t [a] d (.popc a d) (BitVec.ofNat 64 ((List.range 64).countP fun k => x.getLsbD k)))
  ∧ ∀ (s : State) (t : Thread) (b a d : Reg), Issues s t [a, b] [d] →
    (t.src b = 0 → Yields s t [a, b] d (.div b a d) 0xFFFFFFFFFFFFFFFF ∧ Yields s t [a, b] d (.rem b a d) (t.src a)
      ∧ Yields s t [a, b] d (.divw b a d) 0xFFFFFFFFFFFFFFFF ∧ Yields s t [a, b] d (.remw b a d) (t.src a))
    ∧ (t.src a = 0x8000000000000000 → t.src b = 0xFFFFFFFFFFFFFFFF →
      Yields s t [a, b] d (.div b a d) 0x8000000000000000 ∧ Yields s t [a, b] d (.rem b a d) 0)
    ∧ ∀ i ∈ [Instr.div b a d, .divw b a d, .rem b a d, .remw b a d], ∃ v, Yields s t [a, b] d i v

/-- R122, R123, R71, R50, R143, R72: the immediate forms and the forms of a constant, with and without EXT; and a compressed parcel does what
the 32-bit instruction it stands for does, and the thread goes on 2 bytes further. -/
def Obligations.ImmediateResults : Prop :=
  (∀ (s : State) (t : Thread) (x : Ext) (a d : Reg),
     (Issues s t [a] [d] →
       (∀ (k : BitVec 14),
         let sx : BitVec 64 := match x with
           | none => k.signExtend 64
           | some h => (h ++ k).signExtend 64
         let zx : BitVec 64 := match x with
           | none => k.setWidth 64
           | some h => (h ++ k).setWidth 64
         ∀ p ∈ [(Instr.addi x k a d, t.src a + sx), (.andi x k a d, t.src a &&& zx), (.ori x k a d, t.src a ||| zx),
           (.xori x k a d, t.src a ^^^ zx), (.slti x k a d, if (t.src a).toInt < sx.toInt then 1 else 0)],
           Yields s t [a] d p.1 p.2)
       ∧ ∀ (n : BitVec 6), ∀ p ∈ [(Instr.shli n a d, t.src a <<< n.toNat), (.shri n a d, t.src a >>> n.toNat),
           (.sari n a d, (t.src a).sshiftRight n.toNat)], Yields s t [a] d p.1 p.2)
     ∧ (Issues s t [] [d] → ∀ (k : BitVec 19),
         let sx : BitVec 64 := match x with
           | none => k.signExtend 64
           | some h => (h ++ k).signExtend 64
         Yields s t [] d (.lui x k d) (sx <<< 14) ∧ Yields s t [] d (.addpc x k d) (t.pc + sx)))
  ∧ (∀ (s : State) (t : Thread) (x d : Reg), t.nest = none →
       (Issues s t [d] [d] → ∀ p ∈ [(Instr.cAddi x d, t.src d + x.signExtend 64), (.cShli x d, t.src d <<< x.toNat),
         (.cShri x d, t.src d >>> x.toNat), (.cSari x d, (t.src d).sshiftRight x.toNat)], Yields s t [d] d p.1 p.2)
       ∧ (Issues s t [d, x] [d] → ∀ p ∈ [(Instr.cAdd x d, t.src d + t.src x), (.cSub x d, t.src d - t.src x),
         (.cAnd x d, t.src d &&& t.src x), (.cOr x d, t.src d ||| t.src x), (.cXor x d, t.src d ^^^ t.src x)],
         Yields s t [d, x] d p.1 p.2)
       ∧ (Issues s t [x] [d] → Yields s t [x] d (.cMv x d) (t.src x))
       ∧ ∀ i ∈ [Instr.cAddi x d, .cShli x d, .cShri x d, .cSari x d, .cAdd x d, .cSub x d, .cAnd x d, .cOr x d, .cXor x d, .cMv x d],
         ∀ u : Thread, u.nest = none → (u.past i).pc = u.pc + 2)

/-- R75: every base word of major 0x1F, and every compressed ADDI with D = 0, is a hint, and no prefix stands before one; a hint reads and
writes no state but the pc, and is never pushed. -/
def Obligations.HintsOnlyAdvance : Prop :=
  (∀ (s : State) (t : Thread), Issues s t [] [] →
    (∀ x : BitVec 24, exec (.hint x) s = .next (retired s { t with run := .ready } (.hint x)))
    ∧ ∀ x : Reg, exec (.cHint x) s = .next (retired s { t with run := .ready } (.cHint x)))
  ∧ (∀ w, w < 2 ^ 32 → w % 256 = 0x7D → decode w = some (.hint (BitVec.ofNat 24 (w / 256))))
  ∧ (∀ w, w < 2 ^ 16 → w % 2 ^ 11 = 4 → decode w = some (.cHint (BitVec.ofNat 5 (w / 2 ^ 11))))
  ∧ ∀ (w : Nat) (x : BitVec 24), decode w = some (.hint x) → w % 4 = 1

/-- R116, R124 to R130: scalar floating point completes with its result zero-extended in gD and its flags raised at once. -/
def Obligations.ScalarFloatResults : Prop :=
  ∀ (s : State) (t : Thread) (r : BitVec 3) (c b a d : Reg),
    let x := (t.src a).toNat % 2 ^ 32
    let y := (t.src b).toNat % 2 ^ 32
    let z := (t.src c).toNat % 2 ^ 32
    let m := if r = 7 then Rm.ofCode t.frm.toNat else Rm.ofCode r.toNat
    let h := srHash t.seed 0 0x40000000
    let after (srcs : List Reg) (i : Instr) (v : Res) : Prop :=
      exec i s = .next (retired s (((t.issued srcs).raise v.fl).result d (BitVec.ofNat 64 v.bits)) i)
    (Issues s t [a, b] [d] → ∀ p ∈ [(Instr.fadd r b a d, fAdd .f32 x y m h), (.fsub r b a d, fSub .f32 x y m h),
        (.fmul r b a d, fMul .f32 x y m h), (.fdiv r b a d, fDiv .f32 x y m h), (.fmin b a d, fMinMax .f32 false x y),
        (.fmax b a d, fMinMax .f32 true x y)], after [a, b] p.1 p.2)
    ∧ (Issues s t [a, b] [d] → after [a, b] (.fcmp r b a d)
        ⟨if (fCmp .f32 r.toNat x y).1 then 1 else 0, (fCmp .f32 r.toNat x y).2⟩)
    ∧ (Issues s t [a] [d] → after [a] (.fsqrt r a d) (fSqrt .f32 x m h) ∧ after [a] (.fclass a d) ⟨fClass x, 0⟩
        ∧ after [a] (.fcvt r b a d) (fcvtRes b.toNat (t.src a) m h))
    ∧ (Issues s t [a, b, c] [d] → after [a, b, c] (.fma c b a d) (fFma .f32 false x y z (Rm.ofCode t.frm.toNat) h))

/-- R114, R120 to R123, R143, R178: an instruction whose effect is a value for gD changes, whenever it answers a next state (it may wait in
it), nothing but gD, the queue registers its operands are bound to, and where its thread continues. -/
def Obligations.RegisterResultFrame : Prop :=
  ∀ (s s' : State) (x : Ext) (k : BitVec 14) (k' : BitVec 19) (n : BitVec 6) (b a d : Reg),
    ∀ p ∈ [(Instr.add b a d, [a, b]), (.sub b a d, [a, b]), (.mul b a d, [a, b]), (.mulh b a d, [a, b]), (.mulhw b a d, [a, b]),
      (.div b a d, [a, b]), (.divw b a d, [a, b]), (.rem b a d, [a, b]), (.remw b a d, [a, b]), (.and b a d, [a, b]),
      (.or b a d, [a, b]), (.xor b a d, [a, b]), (.shl b a d, [a, b]), (.shr b a d, [a, b]), (.sar b a d, [a, b]),
      (.slt b a d, [a, b]), (.sltw b a d, [a, b]), (.min b a d, [a, b]), (.max b a d, [a, b]), (.minw b a d, [a, b]),
      (.maxw b a d, [a, b]), (.clz a d, [a]), (.ctz a d, [a]), (.popc a d, [a]), (.addi x k a d, [a]), (.andi x k a d, [a]),
      (.ori x k a d, [a]), (.xori x k a d, [a]), (.slti x k a d, [a]), (.shli n a d, [a]), (.shri n a d, [a]), (.sari n a d, [a]),
      (.lui x k' d, []), (.addpc x k' d, []), (.cAddi a d, [d]), (.cAdd a d, [d, a]), (.cSub a d, [d, a]), (.cAnd a d, [d, a]),
      (.cOr a d, [d, a]), (.cXor a d, [d, a]), (.cShli a d, [d]), (.cShri a d, [d]), (.cSari a d, [d]), (.cMv a d, [a]),
      (.vcfgVl d, []), (.vcfgVtype d, []), (.vcfgVlmax d, []), (.vcfgVcp d, []), (.vcfgVstart d, []), (.vcfgRlen d, [])],
    exec p.1 s = .next s' →
      OnlyThread s s' s.cur
      ∧ ∀ t, s.thread? s.cur = some t → ∃ u, s'.thread? s.cur = some u ∧ u = t.issuing u
        ∧ (∀ r, r ≠ d → u.rd r = t.rd r) ∧ ∀ q, (∀ r ∈ d :: p.2, t.boundQ r ≠ some q) → u.qAt q = t.qAt q

/-- R114, R262, R264, R192: g0 reads as zero and a write to it is discarded; a bound register is read from the oldest entry of its queue
register and written behind the newest; an instruction blocks, with no effect, while a queue register that a source is bound to is empty,
or while a queue entry that has not committed will write a register that it names. -/
def Obligations.OperandRegisters : Prop :=
  (∀ (s : State) (t : Thread) (b a : Reg), Issues s t [a, b] [0] → t.boundQ 0 = none → t.nest = none →
     ∃ s' u, exec (.add b a 0) s = .next s' ∧ s'.thread? s.cur = some u ∧ (∀ r, u.rd r = t.rd r) ∧ u.rd 0 = 0 ∧ u.pc = t.pc + 4)
  ∧ (∀ (s : State) (t : Thread) (b a d : Reg) (p q : Nat) (v : BitVec 64) (vs : List (BitVec 64)), Issues s t [a, b] [d] →
       t.boundQ a = some p → t.boundQ b = none → t.boundQ d = some q → p ≠ q → (t.qAt p).entries = v :: vs →
       ∃ s' u, exec (.add b a d) s = .next s' ∧ s'.thread? s.cur = some u
         ∧ (u.qAt p).entries = vs ∧ (u.qAt q).entries = (t.qAt q).entries ++ [v + t.rd b] ∧ (d ≠ 0 → u.rd d = v + t.rd b))
  ∧ (∀ (s : State) (t : Thread) (b a d : Reg), s.thread? s.cur = some t → t.active? = true →
       ((∃ q, t.boundQ a = some q ∧ (t.qAt q).entries = []) ∨ t.isPending a = true ∨ t.isPending d = true) →
       ∀ i ∈ [Instr.add b a d, .mul b a d, .fadd 7 b a d, .amoAdd 3 b a d, .claim b a d],
         t.amo = none → exec i s = .next (s.setThread { t with run := .blocked i }))

/-! ### Loads, stores and atomics -/

/-- R131, R132, R134, R72: an aligned load completes with the bytes at its place, sign- or zero-extended by its type code. -/
def Obligations.LoadResults : Prop :=
  ∀ (s s1 : State) (t : Thread) (x : Ext) (k : BitVec 11) (sc w : BitVec 3) (a d : Reg) (l : Loc),
    let n := 2 ^ (w.toNat % 4)
    let ext (m v : Nat) : BitVec 64 := if m < 4 then BitVec.ofInt 64 (toSigned (8 * 2 ^ (m % 4)) v) else BitVec.ofNat 64 v
    (Issues s t [a] [d] →
      (aligned (t.src a + offM x k) n = true → locate s (t.who s) (t.src a + offM x k) .read false = (.at l, s1) →
        exec (.ld x k w a d) s = .next (retired s1 ((t.issued [a]).result d (ext w.toNat (loadT s1 t l n))) (.ld x k w a d)))
      ∧ (aligned (t.src a) n = true → locate s (t.who s) (t.src a) .read false = (.at l, s1) →
        exec (.ldAcq sc w a d) s = .next (retired s1 ((t.issued [a]).result d (ext w.toNat (loadT s1 t l n))) (.ldAcq sc w a d))))
    ∧ (Issues s t [2] [d] → ∀ y : Reg, let va := t.src 2 + BitVec.ofNat 64 (8 * y.toNat)
        aligned va 8 = true → locate s (t.who s) va .read false = (.at l, s1) →
        exec (.cLdI64 y d) s = .next (retired s1 ((t.issued [2]).result d (ext 3 (loadT s1 t l 8))) (.cLdI64 y d)))

/-- R131 to R134, R72, R330, R405, R406: an aligned store by a thread without determinism completes; the bytes at its place are the low bytes
of gB, least significant first, and every other byte of memory reads as it did with the stores before it performed (`s1` is the state
once the address is translated); in an out tile it is appended to the log. Under determinism it goes into the combining buffer: memory
keeps every byte, and the thread itself reads the bytes it stored, but in a unit window it is stored; a store that finds no room in the
buffer is a Combine Full. -/
def Obligations.StoreResults : Prop :=
  (∀ (s s1 : State) (t : Thread) (x : Ext) (k : BitVec 6) (j : BitVec 5) (sc w : BitVec 3) (b a : Reg) (key : Nat),
     let n := 2 ^ (w.toNat % 4)
     let plain : Prop := t.det = false ∨ 2 ^ 53 ≤ key
     let before : Memory := performOwed s1.mem t.cbuf
     let stored (i : Instr) (u : Thread) (m : Memory) (n : Nat) : Prop :=
       ∃ s2, exec i s = .next (retired s2 u i) ∧ s2 = { s1 with mem := s2.mem }
         ∧ (∀ m, m < n → s2.mem.read (key + m) = (t.src b).extractLsb' (8 * m) 8)
         ∧ ∀ q, q < key ∨ key + n ≤ q → s2.mem.read q = m.read q
     let u : Thread := { t.issued [a, b] with cbuf := [], cvia := [] }
     let va := t.src a + offS x k j
     (Issues s t [a, b] [] → aligned va n = true →
       (plain → locate s (t.who s) va .write (n < 8 && !t.det) = (.at (.mem key), s1) → stored (.st x k w b a j) u before n)
       ∧ ∀ win tw tile off, locate s (t.who s) va .write (n < 8 && !t.det) = (.at (.logged win tw tile off), s1) →
         exec (.st x k w b a j) s = .next (retired (appendLog { s1 with mem := before } t.part win tw tile
           ⟨(t.src b).toNat % 2 ^ (8 * n), off, 7, w.toNat % 4, false⟩) u (.st x k w b a j)))
     ∧ (Issues s t [a, b] [] → (t.det = false ∨ t.drained = true) → aligned (t.src a) n = true →
       (locate s (t.who s) (t.src a) .write (n < 8 && !t.det) = (.at (.mem key), s1) → stored (.stRel sc w b a) (t.issued [a, b]) s1.mem n)
       ∧ ∀ win tw tile off, locate s (t.who s) (t.src a) .write (n < 8 && !t.det) = (.at (.logged win tw tile off), s1) →
         exec (.stRel sc w b a) s = .next (retired (appendLog s1 t.part win tw tile
           ⟨(t.src b).toNat % 2 ^ (8 * n), off, 7, w.toNat % 4, false⟩) (t.issued [a, b]) (.stRel sc w b a)))
     ∧ (Issues s t [2, b] [] → ∀ y : Reg, let va := t.src 2 + BitVec.ofNat 64 (8 * y.toNat)
         plain → aligned va 8 = true → locate s (t.who s) va .write false = (.at (.mem key), s1) →
         stored (.cStI64 y b) { t.issued [2, b] with cbuf := [], cvia := [] } before 8))
  ∧ (∀ (s s1 : State) (t : Thread) (x : Ext) (k : BitVec 6) (j : BitVec 5) (w : BitVec 3) (b a : Reg) (key : Nat), t.det = true →
       key < 2 ^ 53 →
       let n := 2 ^ (w.toNat % 4)
       let va := t.src a + offS x k j
       let m : State := { s1 with mem := performOwed s1.mem t.cbuf }
       Issues s t [a, b] [] → aligned va n = true → key % n = 0 → locate s (t.who s) va .write false = (.at (.mem key), s1) →
       (t.comb.length < 8192 →
         ∃ u, exec (.st x k w b a j) s = .next (retired m u (.st x k w b a j))
           ∧ u = { t.issued [a, b] with cbuf := [], cvia := [], comb := u.comb, combVia := u.combVia }
           ∧ readSelf m u key n = (t.src b).toNat % 2 ^ (8 * n)
           ∧ ∀ q, q < key ∨ key + n ≤ q → readSelf m u q 1 = readSelf m t q 1)
       ∧ (8192 ≤ t.comb.length → (∀ c ∈ t.comb, c.word ≠ key / 8) → canStop s1 t = true →
         exec (.st x k w b a j) s = .next (trapped s1 t { code := 11, addr := va, acc := 2 } t.pc t.pc)))

/-- R372 to R376: a scalar atomic is one update of the bytes at its place, and no other byte changes; the thread waits for the old value,
extended by the type code, which the reply puts into gD with the flags (log entry 12: the update comes at issue). -/
def Obligations.AtomicUpdates : Prop :=
  (∀ (s s1 : State) (t : Thread) (f : BitVec 4) (b a d : Reg) (key : Nat), t.amo = none →
    let n := if f = 3 ∨ f = 7 then 8 else 4
    let signed := f.toNat < 4
    let num (v : Nat) : Int := if signed then toSigned (8 * n) v else Int.ofNat v
    let old := s1.mem.readN key n
    let x := (t.src b).toNat % 2 ^ (8 * n)
    let ext : BitVec 64 := if signed then BitVec.ofInt 64 (toSigned (8 * n) old) else BitVec.ofNat 64 old
    let sent (i : Instr) (srcs : List Reg) (new : Nat) (fl : Flg) : Prop :=
      ∃ s2 : State, exec i s = .next (s2.setThread { t.issued srcs with run := .blocked i, amo := some ⟨d, ext, fl⟩ })
        ∧ s2 = { s1 with mem := s2.mem } ∧ s2.mem.readN key n = new % 2 ^ (8 * n)
        ∧ ∀ q, q < key ∨ key + n ≤ q → s2.mem.read q = s1.mem.read q
    aligned (t.src a) n = true → locate s (t.who s) (t.src a) .atomic false = (.at (.mem key), s1) →
    (Issues s t [a, b] [d] →
      (f ≠ 9 → ∀ p ∈ [(Instr.amoAdd f b a d, old + x), (.amoMin f b a d, if num x < num old then x else old),
        (.amoMax f b a d, if num old < num x then x else old)], sent p.1 [a, b] p.2 0)
      ∧ (f = 9 → let m := Rm.ofCode t.frm.toNat
        let h := srHash t.seed 0 0x50000000
        ∀ p ∈ [(Instr.amoAdd f b a d, fAdd .f32 old x m h), (.amoMin f b a d, fMinMax .f32 false old x),
          (.amoMax f b a d, fMinMax .f32 true old x)], sent p.1 [a, b] p.2.bits p.2.fl)
      ∧ ∀ p ∈ [(Instr.amoAnd f b a d, old &&& x), (.amoOr f b a d, old ||| x), (.amoXor f b a d, old ^^^ x), (.amoSwap f b a d, x)],
        sent p.1 [a, b] p.2 0)
    ∧ (Issues s t [a, b, d] [d] →
      sent (.amoCas f b a d) [a, b, d] (if old = (t.src d).toNat % 2 ^ (8 * n) then x else old) 0))
  ∧ (∀ (s s1 : State) (t : Thread) (f : BitVec 4) (b a : Reg) (ls : List Loc), t.amo = none → Issues s t [a, b] [] →
    let fm : Fmt := if f = 8 then .bf16 else .f32
    let x := (t.src b).toNat % if f = 8 then 2 ^ 16 else 2 ^ 32
    aligned (t.src a) 32 = true → locateAll (t.who s) .atomic (cellPieces (t.src a)) s = .ok ls s1 →
    exec (.amox f b a) s = .next ((addToCell s1 t.part ls (decodeF fm x)).setThread { t.issued [a, b] with
      run := .blocked (.amox f b a), amo := some ⟨0, 0, if isSNaNBits fm x then flNV else 0⟩ }))
  ∧ ∀ (s : State) (t : Thread) (f : BitVec 4) (b a d : Reg) (i : Instr) (r : AmoReply), s.thread? t.slot = some t →
    t.run = .blocked i → t.amo = some r →
    let after : State := s.setThread { ((t.raise r.fl).result r.d r.value).advance (instrLen i) with amo := none, run := .ready }
    exec (.amoReply t.slot) s = .next after
    ∧ (s.cur = t.slot → ∀ j ∈ [Instr.amoAdd f b a d, .amoMin f b a d, .amoMax f b a d, .amoAnd f b a d, .amoOr f b a d,
      .amoXor f b a d, .amoSwap f b a d, .amoCas f b a d, .amox f b a], exec j s = .next after)

/-- R132, R437, R438, R487, R443: a misaligned access takes Misaligned Access at its own address, with the address and the kind of access,
once the vector side can stop; the thread that traps has popped nothing and written no register, and nothing is translated. -/
def Obligations.MisalignedAccessTraps : Prop :=
  ∀ (s : State) (t : Thread) (x : Ext) (k : BitVec 11) (k' : BitVec 6) (j : BitVec 5) (sc w : BitVec 3) (f : BitVec 4) (b a d : Reg),
    canStop s t = true → t.amo = none →
    let n := 2 ^ (w.toNat % 4)
    let trap (va : BitVec 64) (acc : Nat) : Out := .next (trapped s t { code := 2, addr := va, acc := acc } t.pc t.pc)
    (Issues s t [a] [d] → aligned (t.src a + offM x k) n = false → exec (.ld x k w a d) s = trap (t.src a + offM x k) 1)
    ∧ (Issues s t [a] [d] → aligned (t.src a) n = false → exec (.ldAcq sc w a d) s = trap (t.src a) 1)
    ∧ (Issues s t [a] [d] → aligned (t.src a) 32 = false → exec (.spawn a d) s = trap (t.src a) 1)
    ∧ (Issues s t [a, b] [] → aligned (t.src a + offS x k' j) n = false → exec (.st x k' w b a j) s = trap (t.src a + offS x k' j) 2)
    ∧ (Issues s t [a, b] [] → aligned (t.src a) n = false → exec (.stRel sc w b a) s = trap (t.src a) 2)
    ∧ (Issues s t [a, b] [d] → aligned (t.src a) 16 = false → exec (.claim b a d) s = trap (t.src a) 2)
    ∧ (Issues s t [a, b] [d] → aligned (t.src a) 8 = false → exec (.waitw sc b a d) s = trap (t.src a) 1)
    ∧ (Issues s t [a] [d] → aligned (t.src a) 8 = false → ∀ p, exec (.waitc p a d) s = trap (t.src a) 1)
    ∧ (Issues s t [a] [] → aligned (t.src a) 32 = false → ∀ p, exec (.nset p a d) s = trap (t.src a) 1)
    ∧ (Issues s t [a] [d] → t.sup = true → aligned (t.src a) 32 = false → exec (.tmapset a d) s = trap (t.src a) 1)
    ∧ (Issues s t [a, b] [] → (t.src b).toNat < 2 ^ 48 → aligned (t.src a) 8 = false → exec (.sttok b a) s = trap (t.src a) 2)
    ∧ (Issues s t [2] [d] → ∀ y : Reg, let va := t.src 2 + BitVec.ofNat 64 (8 * y.toNat)
        aligned va 8 = false → exec (.cLdI64 y d) s = trap va 1)
    ∧ (Issues s t [2, b] [] → ∀ y : Reg, let va := t.src 2 + BitVec.ofNat 64 (8 * y.toNat)
        aligned va 8 = false → exec (.cStI64 y b) s = trap va 2)
    ∧ (Issues s t [a, b] [] → aligned (t.src a) 32 = false → exec (.amox f b a) s = trap (t.src a) 2)
    ∧ (Issues s t [a, b] [d] → aligned (t.src a) (amoBytes f) = false →
        ∀ i ∈ [Instr.amoAdd f b a d, .amoMin f b a d, .amoMax f b a d, .amoAnd f b a d, .amoOr f b a d, .amoXor f b a d, .amoSwap f b a d],
          exec i s = trap (t.src a) 2)
    ∧ (Issues s t [a, b, d] [d] → aligned (t.src a) (amoBytes f) = false → exec (.amoCas f b a d) s = trap (t.src a) 2)

/-! ### Branches, jumps and loop nests -/

/-- R135, R136, R72, R115: a branch goes to its own address plus the offset where its relation holds, and else falls through. A jump computes
its target from the old registers, writes the address of the instruction after it, and continues at the target; JALR clears bit 0. -/
def Obligations.BranchAndJumpTargets : Prop :=
  (∀ (s : State) (t : Thread) (x : Ext) (k : BitVec 9) (j y : BitVec 5) (b a : Reg),
    let goes (i : Instr) (srcs : List Reg) (off : BitVec 64) (c : Prop) : Prop :=
      (c → exec i s = .next (s.setThread { t.issued srcs with pc := t.pc + off }))
      ∧ (¬ c → exec i s = .next (retired s (t.issued srcs) i))
    (Issues s t [a, b] [] →
      let off : BitVec 64 := match x with
        | none => (k ++ j ++ 0#1).signExtend 64
        | some h => (h ++ k ++ j ++ 0#1).signExtend 64
      let u := t.src a
      let v := t.src b
      ∀ p ∈ [(Instr.beq x k b a j, u = v), (.bne x k b a j, u ≠ v), (.blt x k b a j, u.toInt < v.toInt),
        (.bge x k b a j, v.toInt ≤ u.toInt), (.bltw x k b a j, u.toNat < v.toNat), (.bgew x k b a j, v.toNat ≤ u.toNat)],
        goes p.1 [a, b] off p.2)
    ∧ (Issues s t [a] [] → let off : BitVec 64 := (y ++ 0#1).signExtend 64
      goes (.cBeq y a) [a] off (t.src a = 0) ∧ goes (.cBne y a) [a] off (t.src a ≠ 0)))
  ∧ ∀ (s : State) (t : Thread) (x : Ext) (k : BitVec 19) (k' : BitVec 14) (a d : Reg),
    let goes (i : Instr) (srcs : List Reg) (d : Reg) (len : Nat) (target : BitVec 64) : Prop :=
      exec i s = .next (s.setThread { (t.issued srcs).result d (t.pc + BitVec.ofNat 64 len) with pc := target })
    let len := if x.isSome then 8 else 4
    let off : BitVec 64 := match x with
      | none => (k ++ 0#1).signExtend 64
      | some h => (h ++ k ++ 0#1).signExtend 64
    let imm : BitVec 64 := match x with
      | none => k'.signExtend 64
      | some h => (h ++ k').signExtend 64
    (Issues s t [] [d] → goes (.jal x k d) [] d len (t.pc + off))
    ∧ (Issues s t [a] [d] → goes (.jalr x k' a d) [a] d len ((t.src a + imm) &&& ~~~1))
    ∧ (Issues s t [a] [0] → goes (.cJr a) [a] 0 2 (t.src a &&& ~~~1))
    ∧ (Issues s t [a] [1] → goes (.cJalr a) [a] 1 2 (t.src a &&& ~~~1))

/-- R138, R139: LOOPN captures its counts; where one is zero it goes on after the body, and else it begins the nest at the tuple of zeros,
the first body instruction next. Numbered row-major, each tuple is followed by the next number and the last by none; at the end of an
iteration the nest goes on to the next tuple at its start, or ends after the body. Before the first instruction of an iteration gD and the
registers after it take the indices; D = 0 writes none, and in the middle of an iteration none is written. -/
def Obligations.LoopNests : Prop :=
  (∀ (s s1 : State) (t : Thread) (n : BitVec 4) (b a d : Reg) (body : List Instr) (after : BitVec 64),
     let regs := (List.range n.toNat).map fun j => a + BitVec.ofNat 5 j
     let counts : List (BitVec 32) := regs.map fun r => (t.src r).setWidth 32
     Issues s t regs [] → fillLoop (t.who s) (b.toNat + 1) (t.pc + 4) s = .ok (body, after) s1 →
     (0 ∈ counts → exec (.loopn n b a d) s = .next (s1.setThread { t.issued regs with pc := after, nest := none }))
     ∧ (0 ∉ counts → exec (.loopn n b a d) s = .next (s1.setThread { t.issued regs with
         pc := t.pc + 4
         nest := some { counts := counts, tuple := counts.map fun _ => 0, start := t.pc + 4, after := after, body := body, pos := 0,
                        d := d, a := a } })))
  ∧ (∀ (counts tuple : List (BitVec 32)), tuple.length = counts.length → (∀ j, j < counts.length → tuple.getD j 0 < counts.getD j 0) →
       let number (xs : List (BitVec 32)) : Nat :=
         (List.zip counts xs).foldl (fun n p => n * p.1.toNat + p.2.toNat) 0
       let total := (counts.map BitVec.toNat).foldl (· * ·) 1
       (number tuple + 1 = total → nextTuple counts tuple = none)
       ∧ (number tuple + 1 < total → ∃ next, nextTuple counts tuple = some next ∧ next.length = counts.length
           ∧ (∀ j, j < counts.length → next.getD j 0 < counts.getD j 0) ∧ number next = number tuple + 1))
  ∧ (∀ (t : Thread) (n : Nest) (len : Nat), t.nest = some n →
       (n.pos + 1 < n.body.length → t.advance len = { t with pc := t.pc + BitVec.ofNat 64 len, nest := some { n with pos := n.pos + 1 } })
       ∧ (n.body.length ≤ n.pos + 1 →
         (∀ u, nextTuple n.counts n.tuple = some u → t.advance len = { t with pc := n.start, nest := some { n with tuple := u, pos := 0 } })
         ∧ (nextTuple n.counts n.tuple = none → t.advance len = { t with pc := n.after, nest := none })))
  ∧ ∀ (t : Thread) (n : Nest), t.nest = some n →
       ((n.pos ≠ 0 ∨ n.d = 0) → t.enterIter = some t)
       ∧ (n.pos = 0 → n.d.toNat + n.tuple.length ≤ 32 →
         let index (r : Reg) : Prop := n.d ≠ 0 ∧ n.d.toNat ≤ r.toNat ∧ r.toNat < n.d.toNat + n.tuple.length
         ((∃ r, index r ∧ t.isPending r = true) → t.enterIter = none)
         ∧ ((∀ r, index r → t.isPending r = false) → ∃ u, t.enterIter = some u ∧ u = { t with g := u.g }
           ∧ (∀ j, j < n.tuple.length → n.d ≠ 0 → u.rd (n.d + BitVec.ofNat 5 j) = (n.tuple.getD j 0).setWidth 64)
           ∧ ∀ r, ¬ index r → u.rd r = t.rd r))

/-! ### Status registers -/

/-- R117 to R119, R151, R152, R347: MFS delivers the status register of its code; ASPACE is read in supervisor mode, and FFLAGS, SAT, EFC and
TSTAT once every earlier queued instruction has committed. -/
def Obligations.StatusReads : Prop :=
  ∀ (s : State) (t : Thread) (d : Reg), Issues s t [] [d] →
    let p := s.partOf t
    (t.sup = true → Yields s t [] d (.mfs 9 d) t.aspace)
    ∧ (t.queue = [] → ∀ c ∈ [((2 : BitVec 5), t.fflags.setWidth 64), (3, if t.sat then 1 else 0), (4, t.carry.setWidth 64),
        (6, BitVec.ofNat 64 (2 ^ 36 * (t.rank % 2 ^ 20) + 2 ^ 32 * (t.part % 16) + 2 ^ 18 * (t.slot % 2 ^ 14)
          + (if t.sup then 128 else 0) + (if t.vempty then 4 else 0) + if t.det then 2 else 0))],
        Yields s t [] d (.mfs c.1 d) c.2)
    ∧ ∀ c ∈ [((0 : BitVec 5), t.frm.setWidth 64), (1, t.xrm.setWidth 64), (5, t.seed),
        (7, BitVec.ofNat 64 ((if t.pe then 128 else 0) + 16 * t.prioMax.toNat + t.level.toNat)), (8, t.weight.setWidth 64),
        (10, BitVec.ofNat 64 ((if s.vtab.isSome then 2 ^ 16 else 0) + p.ver.toNat)), (11, s.time), (12, p.ishape)],
        Yields s t [] d (.mfs c.1 d) c.2

/-- R95 to R101, R117 to R119, R151 to R153, R359, R455, R456: MTS writes the fields of its register that its mode may write, where the value
is one that the register's description admits, and nothing else; that of ISHAPE first brings the credits of the partition's lattices up to
the time at which the old rate ends. -/
def Obligations.StatusWrites : Prop :=
  ∀ (s : State) (t : Thread) (a : Reg), Issues s t [a] [] →
    let v := t.src a
    let u := t.issued [a]
    (v.toNat % 8 < 6 → exec (.mtsFrm a) s = .next (retired s { u with frm := v.setWidth 3 } (.mtsFrm a)))
    ∧ exec (.mts 1 a) s = .next (retired s { u with xrm := v.setWidth 2 } (.mts 1 a))
    ∧ exec (.mts 5 a) s = .next (retired s { u with seed := v } (.mts 5 a))
    ∧ (t.queue = [] → exec (.mtsFflags a) s = .next (retired s { u with fflags := v.setWidth 6 } (.mtsFflags a))
      ∧ exec (.mtsSat a) s = .next (retired s { u with sat := v.getLsbD 0 } (.mtsSat a))
      ∧ exec (.mtsEfc a) s = .next (retired s { u with carry := v.setWidth 32 } (.mtsEfc a))
      ∧ exec (.mtsTstat a) s = .next (retired s { u with vempty := v.getLsbD 2 } (.mtsTstat a)))
    ∧ ((t.sup = true ∨ (v.getLsbD 7 = t.pe ∧ v.extractLsb' 4 2 = t.prioMax)) → (v.extractLsb' 0 2).toNat ≤ (v.extractLsb' 4 2).toNat →
      exec (.mtsPrio a) s = .next (retired s { u with pe := v.getLsbD 7, prioMax := v.extractLsb' 4 2, level := v.extractLsb' 0 2 }
        (.mtsPrio a)))
    ∧ (1 ≤ v.toNat % 32 → v.toNat % 32 ≤ 16 → exec (.mtsWshare a) s = .next (retired s { u with weight := v.setWidth 5 } (.mtsWshare a)))
    ∧ (t.sup = true → aspaceOk v = true → t.queue = [] → t.owed = [] →
      exec (.mtsAspace a) s = .next (retired s { u with aspace := v } (.mtsAspace a)))
    ∧ (t.sup = true → ishapeOk v = true →
      exec (.mtsIshape a) s = .next (retired (s.setPart t.part { (s.partOf t).settle (s.cyc / 2) with ishape := v }) u (.mtsIshape a)))

/-- R95, R117, R152, R153, R336, R369, R444, R446: what user mode may not do raises Illegal Instruction at its own address, and does nothing
else; so does, in either mode, an MTS of VBIND or of TIME, of a reserved rounding mode, of a level above its maximum or of a weight
outside 1 to 16. -/
def Obligations.PrivilegeRefusals : Prop :=
  (∀ (s : State) (t : Thread) (b a d : Reg), t.sup = false → canStop s t = true →
     let trap : Out := .next (trapped s t { code := 1 } t.pc t.pc)
     (Issues s t [] [d] → exec (.mfs 9 d) s = trap)
     ∧ (Issues s t [a] [] → exec (.mtsAspace a) s = trap ∧ exec (.mtsIshape a) s = trap ∧ exec (.tlbinvA a) s = trap)
     ∧ (Issues s t [a] [] → ((t.src a).getLsbD 7 ≠ t.pe ∨ (t.src a).extractLsb' 4 2 ≠ t.prioMax) → exec (.mtsPrio a) s = trap)
     ∧ (Issues s t [a, b] [] → exec (.tlbinv b a) s = trap)
     ∧ (Issues s t [a] [d] → exec (.tmapset a d) s = trap)
     ∧ (Issues s t [] [] → exec .eret s = trap))
  ∧ (∀ (s : State) (t : Thread) (a : Reg), Issues s t [a] [] → canStop s t = true →
       let v := t.src a
       let trap : Out := .next (trapped s t { code := 1 } t.pc t.pc)
       exec (.mts 10 a) s = trap ∧ exec (.mts 11 a) s = trap
       ∧ (6 ≤ v.toNat % 8 → exec (.mtsFrm a) s = trap)
       ∧ ((v.extractLsb' 4 2).toNat < (v.extractLsb' 0 2).toNat → exec (.mtsPrio a) s = trap)
       ∧ (v.toNat % 32 = 0 ∨ 16 < v.toNat % 32 → exec (.mtsWshare a) s = trap))

/-- R173, R178, R179: VCFG and VCFGI set VTYPE, and VL to the smaller of gA and the largest that the type allows, which gD takes; the
reading forms deliver a register. -/
def Obligations.VectorConfiguration : Prop :=
  ∀ (s : State) (t : Thread) (x : Ext) (k : BitVec 6) (b a d : Reg),
    let after (i : Instr) (srcs : List Reg) (vt : BitVec 6) : Prop :=
      let vl : BitVec 14 := BitVec.ofNat 14 (min (t.src a).toNat (vlmax vt t.splitC))
      exec i s = .next (retired s (({ t.issued srcs with vtype := vt, vl := vl } : Thread).result d (vl.setWidth 64)) i)
    (Issues s t [a, b] [d] → (t.src b).toNat < 64 → after (.vcfg b a d) [a, b] ((t.src b).setWidth 6))
    ∧ (Issues s t [a] [d] → after (.vcfgi x k a d) [a] k)
    ∧ (Issues s t [] [d] → Yields s t [] d (.vcfgVl d) (t.vl.setWidth 64) ∧ Yields s t [] d (.vcfgVtype d) (t.vtype.setWidth 64)
      ∧ Yields s t [] d (.vcfgVlmax d) (BitVec.ofNat 64 (vlmax t.vtype t.splitC))
      ∧ Yields s t [] d (.vcfgVcp d) (match t.queue with
        | e :: _ => e.seq
        | [] => t.pushSeq)
      ∧ Yields s t [] d (.vcfgRlen d) (BitVec.ofNat 64 (rlenOf t.splitC))
      ∧ (t.queue = [] → Yields s t [] d (.vcfgVstart d) (t.vstart.setWidth 64)))

/-! ### Traps and returning -/

/-- R438, R437, R440 to R442, R443: what a user thread finds in its handler. The mode is supervisor, g5 addresses the frame and g6 is its CAUSE
word, execution continues at TVEC + 32 × code, the vector queue is empty, VSTART is 0 and no nest runs; every other register and the
status registers are kept. The frame block of the slot takes the fields, the nest and the chain state that were under way, g0 to g31 and
the saved entries; outside it, every byte of memory reads as before once the stores that the write streams owe, and those that the C
stream holds, are performed. -/
def Obligations.TrapEntersHandler : Prop :=
  (∀ (s : State) (t : Thread) (tr : Trap) (v : Bool) (pc epc : BitVec 64) (skip : Bool), s.thread? t.slot = some t → t.sup = false →
     let s' := enterTrap s t tr v pc epc skip
     let p := s.partOf t
     let cause := tr.code % 64 + (if v then 2 ^ 8 else 0) + tr.acc % 4 * 2 ^ 10 + (if skip then 2 ^ 12 else 0)
       + if t.nest.isSome then 2 ^ 13 else 0
     ∃ u, s'.thread? t.slot = some u ∧ u.sup = true ∧ u.run = .ready
       ∧ u.pc = p.tvec + BitVec.ofNat 64 (32 * tr.code)
       ∧ u.rd 5 = p.fva + BitVec.ofNat 64 (2 ^ 14 * t.slot) ∧ u.rd 6 = BitVec.ofNat 64 cause
       ∧ (∀ r, r ≠ 5 → r ≠ 6 → u.rd r = t.rd r)
       ∧ u.queue = [] ∧ u.vstart = 0 ∧ u.nest = none ∧ u.replay = none
       ∧ u.vreg = t.vreg ∧ u.m = t.m ∧ u.frm = t.frm ∧ u.xrm = t.xrm ∧ u.fflags = t.fflags ∧ u.sat = t.sat ∧ u.seed = t.seed
       ∧ u.carry = t.carry ∧ u.aspace = t.aspace ∧ u.vtype = t.vtype ∧ u.vl = t.vl ∧ u.level = t.level ∧ u.weight = t.weight)
  ∧ (∀ (s : State) (t : Thread) (tr : Trap) (v : Bool) (pc epc : BitVec 64) (skip : Bool), t.sup = false → t.queue.length ≤ 64 →
       let s' := enterTrap s t tr v pc epc skip
       let f := (s.partOf t).savebase.toNat + 2 ^ 16 + 2 ^ 14 * t.slot
       s'.mem.readN f 8 = tr.code % 64 + (if v then 2 ^ 8 else 0) + tr.acc % 4 * 2 ^ 10 + (if skip then 2 ^ 12 else 0)
           + (if t.nest.isSome then 2 ^ 13 else 0)
         ∧ s'.mem.readN (f + 8) 8 = pc.toNat ∧ s'.mem.readN (f + 16) 8 = epc.toNat ∧ s'.mem.readN (f + 24) 8 = t.vcp.toNat
         ∧ s'.mem.readN (f + 32) 8 = tr.addr.toNat ∧ s'.mem.readN (f + 40) 8 = tr.detail.toNat ∧ s'.mem.readN (f + 48) 8 = t.queue.length
         ∧ (∀ n, t.nest = some n → n.counts.length ≤ 6 → n.tuple.length = n.counts.length → n.pos < 32 → n.body.length ≤ 32 →
           (∀ j, j < n.counts.length → s'.mem.readN (f + 64 + 4 * j) 4 = (n.counts.getD j 0).toNat
             ∧ s'.mem.readN (f + 88 + 4 * j) 4 = (n.tuple.getD j 0).toNat)
           ∧ s'.mem.readN (f + 112) 8 = n.start.toNat
           ∧ s'.mem.readN (f + 120) 8 = n.pos + (n.body.length - 1) * 2 ^ 8 + n.counts.length * 2 ^ 16 + n.d.toNat * 2 ^ 24
             + n.a.toNat * 2 ^ 32)
         ∧ (s'.mem.readN (f + 128) 8 = match t.replay with
           | none => 0
           | some (rem, pos) => rem.toNat + pos.toNat * 2 ^ 16 + 2 ^ 20)
         ∧ (∀ r : Reg, s'.mem.readN (f + 0x200 + 8 * r.toNat) 8 = (t.rd r).toNat)
         ∧ (∀ k : Fin t.queue.length, s'.mem.readBytes (f + 0x400 + 128 * k.val) 128 = (t.queue[k]).bytes)
         ∧ ∀ a, a < f ∨ f + 2 ^ 14 ≤ a →
           s'.mem.read a = (performOwed (t.owed.foldl (fun m (o : OwedStores) => performOwed m o.stores) s.mem) t.cbuf).read a)

/-- R439: a trap in supervisor mode, which a fault on fetching and a refused ERET are too, is a double trap. The thread enters no handler:
it stops halted with every register as it was, its frame block is written with DBL = 1, and the stop is reported through management and
appended as an event to both rings of the host mailbox. A refused ERET is one that reads a frame block, with the stores the thread holds,
that is not as it must be, where no entry is left (what else makes such a frame: log entry 24). -/
def Obligations.DoubleTrapHalts : Prop :=
  (∀ (s : State) (t : Thread) (tr : Trap) (v : Bool) (pc epc : BitVec 64) (skip : Bool), s.thread? t.slot = some t → t.sup = true →
    let s' := enterTrap s t tr v pc epc skip
    let f := (s.partOf t).savebase.toNat + 2 ^ 16 + 2 ^ 14 * t.slot
    ∃ u, s'.thread? t.slot = some u ∧ u.run = .halted ∧ u.pc = pc ∧ u.sup = true ∧ (∀ r, u.rd r = t.rd r)
      ∧ s'.reports = s.reports ++ [.halted t.slot] ∧ s'.evCount = s.evCount + 1 ∧ s'.msix = true
      ∧ (f + 8 ≤ s.mailbox false ∨ s.mailbox true + 0x500 ≤ f → bitAt (s'.mem.readN f 8) 14 = true)
      ∧ ∀ b ∈ [s.mailbox false, s.mailbox true], let r := b + 0x100 + 32 * (s.evCount.toNat % 32)
        s'.mem.readN (b + 0x80) 8 = (s.evCount + 1).toNat ∧ s'.mem.readN r 8 = 1 ∧ s'.mem.readN (r + 8) 8 = t.slot % 2 ^ 64)
  ∧ (∀ (s : State) (t : Thread), Issues s t [] [] → t.queue = [] → t.sup = true → canStop s t = true →
    frameOk ((performOwed s.mem t.cbuf).readBytes (s.frameBase t) 0x4000) = false →
    exec .eret s = .next (enterTrap { s with mem := performV s.mem t.vbuf } { t with vbuf := [] } { code := 1 } false t.pc t.pc false))
  ∧ ∀ (s s1 : State) (t : Thread) (tr : Trap), turnOf s = .issue t.slot → MayServe s t → t.run = .ready → t.nest = none →
    let x := served s t
    fetchWord (t.who x) t.pc x = .bad tr s1 → canStop s1 t = true → step s = .next (turnEnd s t (trapped s1 t tr t.pc t.pc))

/-- R438, R443, R444, R445: TRAP n takes cause 32 + n, with the address after it to resume at and its own as the trapping one; HALT stops a
thread under a debugger and is else a Breakpoint, at its own address. The vector side stops first: where no entry is left, the trap is as
the instruction raises it, once the stores that the V stream holds are performed; where the oldest has faulted, its trap is reported instead,
at the control instruction. -/
def Obligations.TrapAndHaltInstructions : Prop :=
  (∀ (s : State) (t : Thread) (n : BitVec 5), Issues s t [] [] → canStop s t = true →
    exec (.trap n) s = .next (trapped s t { code := 32 + n.toNat } (t.pc + 4) t.pc)
    ∧ ((s.partOf t).debugger = false → exec .halt s = .next (trapped s t { code := 21 } t.pc t.pc))
    ∧ ((s.partOf t).debugger = true → ∃ s' u, exec .halt s = .next s' ∧ s'.thread? s.cur = some u ∧ u.run = .halted ∧ u.pc = t.pc
        ∧ (∀ r, u.rd r = (stopVector s t).2.rd r) ∧ u.sup = t.sup ∧ s'.reports = s.reports ++ [.halted t.slot]))
  ∧ (∀ (s : State) (t : Thread) (tr : Trap) (pc epc : BitVec 64),
    (t.queue = [] → canStop s t = true →
      trapped s t tr pc epc = enterTrap { s with mem := performV s.mem t.vbuf } { t with vbuf := [] } tr false pc epc false)
    ∧ (AtRest s t → canStop s t = true ∧ trapped s t tr pc epc = enterTrap s t tr false pc epc false)
    ∧ ∀ (e : QEntry) (es : List QEntry) (f : Trap), t.queue = e :: es → e.fault = some f → e.done = false →
      ∃ (s1 : State) (u : Thread), trapped s t tr pc epc = enterTrap s1 u f true t.pc e.pc e.skip ∧ s1.mem = performV s.mem t.vbuf ∧ u.slot = t.slot
        ∧ u.sup = t.sup ∧ u.g = t.g ∧ u.vreg = t.vreg ∧ u.queue.map QEntry.seq = t.queue.map QEntry.seq)
  ∧ ∀ (s : State) (t : Thread), t.queue = [] → canStop s t = true →
    (stopVector s t) = ({ s with mem := performV s.mem t.vbuf }, { t with vbuf := [] })

/-- R446, R142, R439: ERET, once earlier entries have committed, restores what the frame block holds: g1 to g31, the mode, the chain state,
the nest with its body fetched again where one ran, and the saved entries from the first on, or the second under SKIP, under fresh
numbers, a VRECONF and an AFREE among them updating what their pushes update; execution continues at the frame's PC. One whose frame
block is not as it must be, or whose nest cannot be fetched, is a double trap, and one in user mode is an Illegal Instruction. The model's
choices: the nest's body is checked and fetched in the mode that is restored (log entry 38); a frame whose entries do not decode, or whose
nest cannot be one, is refused too (log entry 24); VL is held against the split that the saved entries leave, and the control thread's
copies are those of the vector side but for them (log entry 90). -/
def Obligations.ReturnFromTrap : Prop :=
  (∀ (s s1 : State) (t : Thread) (body : List Instr) (after : BitVec 64), Issues s t [] [] → t.sup = true → t.queue = [] →
     let f := (performOwed s.mem t.cbuf).readBytes (s.frameBase t) 0x4000
     let cause := word64 f 0
     let nested := bitAt cause 13
     let skip := if bitAt cause 12 then 1 else 0
     let pos := word64 f 120
     let start : BitVec 64 := BitVec.ofNat 64 (word64 f 112)
     let words (off : Nat) : List (BitVec 32) :=
       (List.range (fld pos 16 3)).map fun i => BitVec.ofNat 32 (ofBytesLE ((f.drop (off + 4 * i)).take 4))
     let chain := word64 f 128
     let nest : Nest := ⟨words 64, words 88, start, after, body, fld pos 0 5, BitVec.ofNat 5 (fld pos 24 5), BitVec.ofNat 5 (fld pos 32 5)⟩
     frameOk f = true →
     (if nested then fillLoop { t.who s with sup := bitAt cause 9 } (fld pos 8 5 + 1) start s = .ok (body, after) s1 else s1 = s) →
     ∃ u, exec .eret s = .next (s1.setThread u) ∧ u.pc = BitVec.ofNat 64 (word64 f 8) ∧ u.sup = bitAt cause 9
       ∧ u.nest = (if nested then some nest else none)
       ∧ u.replay = (if bitAt chain 20 then some (BitVec.ofNat 16 (fld chain 0 16), BitVec.ofNat 4 (fld chain 16 4)) else none)
       ∧ (∀ r : Reg, r ≠ 0 → u.rd r = BitVec.ofNat 64 (word64 f (0x200 + 8 * r.toNat)))
       ∧ u.queue.length = word64 f 48 - skip ∧ u.pushSeq = t.pushSeq + BitVec.ofNat 64 u.queue.length
       ∧ (∀ k : Fin u.queue.length, ∃ e, readEntry (entryBytes f (k.val + skip)) = some e
         ∧ u.queue[k] = { e with seq := t.pushSeq + BitVec.ofNat 64 k.val, blks := (u.queue[k]).blks, qs := (u.queue[k]).qs,
                                 subPopped := (u.queue[k]).subPopped, repPos := (u.queue[k]).repPos })
       ∧ u = { t with g := u.g, nest := u.nest, replay := u.replay, sup := u.sup, queue := u.queue, held := [], pushSeq := u.pushSeq,
                      pc := u.pc, run := .ready, arrived := false, splitC := u.splitC, vl := u.vl, chain := u.chain,
                      view0 := u.view0, view1 := u.view1, drainedAt := u.drainedAt }
       ∧ u.vl.toNat = min t.vl.toNat (vlmax t.vtype u.splitC) ∧ (t.recording = true → u.chain = t.chain)
       ∧ ((∀ x ∈ u.queue, ∀ o, x.instr ≠ .vreconf o) → u.splitC = t.splitV ∧ u.chain = t.chain)
       ∧ (∀ xs x ys o, u.queue = xs ++ x :: ys → x.instr = .vreconf o → (∀ y ∈ ys, ∀ o, y.instr ≠ .vreconf o) →
         u.splitC = o.e.setWidth 2)
       ∧ ∀ h : Nat, h < 2 → u.view h = ((t.hnd h).isSome && !u.queue.any fun x => match x.instr with
         | .afree o => decide ((if o.d = 0 then 0 else 1) = h)
         | _ => false))
  ∧ (∀ (s s1 : State) (t : Thread), Issues s t [] [] →
       let f := (performOwed s.mem t.cbuf).readBytes (s.frameBase t) 0x4000
       (t.sup = false → canStop s t = true → exec .eret s = .next (trapped s t { code := 1 } t.pc t.pc))
       ∧ (t.sup = true → t.queue = [] →
         (frameOk f = false → canStop s t = true → exec .eret s = .next (trapped s t { code := 1 } t.pc t.pc))
         ∧ ∀ tr, frameOk f = true → bitAt (word64 f 0) 13 = true →
           fillLoop { t.who s with sup := bitAt (word64 f 0) 9 } (fld (word64 f 120) 8 5 + 1) (BitVec.ofNat 64 (word64 f 112)) s = .bad tr s1 →
           canStop s1 t = true → exec .eret s = .next (trapped s1 t tr t.pc t.pc)))

/-- R382, R386, R387, R370: what the ordering instructions come to once what they wait for is over: the thread goes on, and nothing else
changes but the copies of code and of page-table entries that the instruction removes, and under TLBINV the strips read ahead. -/
def Obligations.OrderingCompletes : Prop :=
  ∀ (s : State) (t : Thread) (sc : BitVec 3) (b a : Reg),
    let after (i : Instr) (s1 : State) (u : Thread) : Prop := exec i s = .next (retired s1 u i)
    (Issues s t [] [] → after .isync { s with code := [] } (t.issued [])
      ∧ (t.queue = [] → t.owed = [] → t.det = false → after (.fence sc) s (t.issued [])))
    ∧ (Issues s t [a, b] [] → after (.iflush b a) (flushCode s t.slot (t.src a) (t.src b)) (t.issued [a, b])
      ∧ (t.sup = true → (t.src b).toNat < 2 ^ 16 →
        translationsDone s (fun v => v.hit (t.src a) ((t.src b).setWidth 16)) = true →
        after (.tlbinv b a) (dropStrips (dropPage s (t.src a) ((t.src b).setWidth 16))) (t.issued [a, b]).dropStrips))
    ∧ (Issues s t [a] [] → t.sup = true → fld (t.src a).toNat 16 47 = 0 → translationsDone s (fun v => v.hitAll (t.src a)) = true →
      after (.tlbinvA a) (dropStrips (dropSpace s (t.src a))) (t.issued [a]).dropStrips)

/-- R361, R362, R366, R369 to R371, R385 to R388: the translation caches and the copies of code. Any thread's turn may cache an entry of its
walk, or copy a word of code, and a cache may lose what it holds; nothing else changes then but the accessed bit that the fetch sets. With no
entry cached that covers a page, the walk from the root is what counts, and so it is after TLBINV of an address of the page, and after
TLBINV.A of the address space; a leaf cached without D serves no write. A fetched parcel comes from a copy of its word or from memory, and
after IFLUSH of a range that holds it, and after ISYNC, from memory alone. -/
def Obligations.CachesAndCopies : Prop :=
  (∀ (s : State) (slot level k : Nat) (va : BitVec 64) (buffer : Bool),
    (∃ l, doTurn (.cachePte slot level va) s = .next { s with tlb := l } ∧ ∀ c ∈ s.tlb, c ∈ l)
    ∧ doTurn (.dropPte k) s = .next { s with tlb := s.tlb.eraseIdx k }
    ∧ doTurn (.dropCode k) s = .next { s with code := s.code.eraseIdx k }
    ∧ doTurn (.copyCode slot va buffer) s = .next (copyCode s slot va buffer)
    ∧ ∀ (t : Thread) (key : Nat) (s1 : State), s.thread? slot = some t → s.code = [] → va.toNat % 4 = 0 → t.pc.toNat < va.toNat + 4 →
      locate s (t.who s) va .fetch false = (.at (.mem key), s1) →
      ∃ c : CodeCopy, copyCode s slot va buffer = { s1 with code := c :: s1.code } ∧ c.key = key ∧ c.va = va
        ∧ c.word = BitVec.ofNat 32 (s1.mem.readN key 4))
  ∧ (∀ (s : State) (aspace va va' : BitVec 64) (k : Acc1) (sup : Bool),
    let full := walk s va k sup 4 (rootOf aspace)
    ((∀ c ∈ s.tlb, c.serves (asidOf aspace) = true → c.covers va = false) → walkCached s aspace va k sup = full)
    ∧ (va.toNat / 4096 = va'.toNat / 4096 → walkCached (dropPage s va' (asidOf aspace)) aspace va k sup = full)
    ∧ walkCached (dropSpace s ((asidOf aspace).setWidth 64)) aspace va k sup = full
    ∧ (∀ a : BitVec 64, a.getLsbD 63 = true → walkCached (dropSpace s a) aspace va k sup = full)
    ∧ ((∀ c ∈ s.tlb, isLeaf c.pte = true ∧ bitAt c.pte 7 = false) → k.writes = true → walkCached s aspace va k sup = full)
    ∧ (walkCached s aspace va k sup = full ∨ ∃ c ∈ s.tlb, c.serves (asidOf aspace) = true ∧ c.covers va = true
      ∧ (isLeaf c.pte = true ∧ walkCached s aspace va k sup = (leafPlace c.pte c.level va k sup).map (fun pa => (pa, s.mem))
        ∨ isLeaf c.pte = false ∧ ∃ n, c.level = n + 1 ∧ walkCached s aspace va k sup = walk s va k sup n (fld c.pte 10 40 * 4096))))
  ∧ ∀ (s : State) (slot : Nat) (va a n : BitVec 64) (key : Nat),
    let l := Loc.mem key
    ((fetchedParcel s slot va l = loadHome s l 2)
      ∨ ∃ c ∈ s.code, c.key = key - va.toNat % 4 ∧ fetchedParcel s slot va l = fld c.word.toNat (8 * (va.toNat % 4)) 16)
    ∧ ((va - a).toNat < n.toNat → fetchedParcel (flushCode s slot a n) slot va l = loadHome s l 2)
    ∧ fetchedParcel { s with code := [] } slot va l = loadHome s l 2

/-! ### Launching, groups, work queues, claiming and waiting -/

/-- R147, R148: SPAWN reads its record, writes the first code that applies in the order −2, −1, −3, −4, −5, and a refused one has no other
effect; an accepted launch joins the live launches of its partition, all its ranks members of its group. R159, R144, R229: EXIT of a thread
whose work is done frees its slot and its tiles and leaves every group as LEAVE does; the other threads stand as before, and so do the
other members of the groups and, where no episode is open in them, every byte of memory; the launch counts the exit, or ends with
its last thread. -/
def Obligations.SpawnAndExit : Prop :=
  (∀ (s s1 : State) (t : Thread) (a d : Reg) (bs : List (BitVec 8)), Issues s t [a] [d] → aligned (t.src a) 32 = true → t.queue = [] →
    t.det = false → readBlockC t 1 (t.src a) s = .ok bs s1 →
    let r := parseLaunch bs
    let p := s1.parts.toList.getD r.part {}
    let after (s2 : State) (v : BitVec 64) : Prop := exec (.spawn a d) s = .next (retired s2 ((t.issued [a]).result d v) (.spawn a d))
    let c2 := 16 ≤ r.part ∨ p.valid = false ∨ (t.sup = false ∧ r.part ≠ t.part)
    let c1 := 4096 ≤ p.launches.length
    let c3 := r.count = 0 ∨ 1048576 < r.count ∨ r.entry.getLsbD 0 = true ∨ r.clean = false ∨ fld r.flags 4 4 ≠ 0
    let c4 := t.prioMax.toNat < r.flags % 4 ∨ (bitAt r.flags 2 = true ∧ t.pe = false)
    let c5 := r.group ≠ 0 ∧ (∀ g ∈ p.groups, g.id ≠ r.group) ∧ 1024 ≤ p.groups.length
    (c2 → after s1 (-2)) ∧ (¬ c2 → c1 → after s1 (-1)) ∧ (¬ c2 → ¬ c1 → c3 → after s1 (-3)) ∧ (¬ c2 → ¬ c1 → ¬ c3 → c4 → after s1 (-4))
    ∧ (¬ c2 → ¬ c1 → ¬ c3 → ¬ c4 → c5 → after s1 (-5))
    ∧ (¬ c2 → ¬ c1 → ¬ c3 → ¬ c4 → ¬ c5 → ∃ (id : Nat) (s2 : State) (l : Launch), id < 2 ^ 32 ∧ after s2 (BitVec.ofNat 64 id)
        ∧ (∀ m ∈ p.launches, m.id ≠ id) ∧ (s2.parts.toList.getD r.part {}).launches = p.launches ++ [l]
        ∧ l.id = id ∧ l.entry = r.entry ∧ l.args = r.args ∧ l.count = r.count ∧ l.group = r.group ∧ l.next = 0 ∧ l.exited = 0
        ∧ (r.group ≠ 0 → ∀ k, k < r.count →
            ((s2.parts.toList.getD r.part {}).group? r.group).any (fun g => g.members.has id k) = true)))
  ∧ ∀ (s : State) (t : Thread), Issues s t [] [] → t.queue = [] → t.owed = [] → (t.det = false ∨ t.drained = true) → t.part < 16 →
    let groups := (s.partOf t).groupsOf t.launch t.rank
    ∃ s', exec .exit s = .next s' ∧ s'.thread? t.slot = none ∧ (∀ k, k ≠ t.slot → s'.thread? k = s.thread? k)
      ∧ (∀ k, k < 2 → (∀ u ∈ s.threads, u.slot ≠ t.slot → u.facet = t.facet → k ∉ u.tiles) → k ∈ freeTiles s' t.facet)
      ∧ (∀ g ∈ (s'.partOf t).groups, g.members.has t.launch t.rank = false
        ∧ ∃ g0 ∈ (s.partOf t).groups, g.id = g0.id ∧ ∀ l r, l ≠ t.launch → g.members.has l r = g0.members.has l r)
      ∧ ((∀ g ∈ groups, (s.partOf t).group? g.id = some g ∧ g.episode = none) → s'.mem = s.mem)
      ∧ (∀ g, groups = [g] → (s.partOf t).group? g.id = some g → let w := leaveGroup s t.part g t.launch t.rank
        s'.mem = w.mem ∧ ∀ l, s.launchOf t = some l → l.exited + 1 ≠ l.count → (s'.partOf t).groups = (w.partOf t).groups)
      ∧ ∀ l, s.launchOf t = some l →
        (l.exited + 1 = l.count → ∀ m ∈ (s'.partOf t).launches, m.id ≠ t.launch)
        ∧ (l.exited + 1 ≠ l.count → (s'.launchOf t).map Launch.exited = some (l.exited + 1))

/-- R154: JOIN and LEAVE write the first code that applies, in the order 4, 1, 3, 2, and change membership only where they write 0. -/
def Obligations.GroupMembership : Prop :=
  ∀ (s : State) (t : Thread) (a d : Reg), Issues s t [a] [d] → t.part < 16 →
    let v := t.src a
    let id : BitVec 32 := v.setWidth 32
    let p := s.partOf t
    let me := (t.launch, t.rank)
    let member : Prop := (p.group? id).any (fun g => g.members.has t.launch t.rank) = true
    let c4 := v = 0 ∨ 2 ^ 32 ≤ v.toNat
    let c3 := 8 ≤ (p.groupsOf t.launch t.rank).length
    let c2 := p.group? id = none ∧ 1024 ≤ p.groups.length
    let after (i : Instr) (s2 : State) (w : BitVec 64) : Prop := exec i s = .next (retired s2 ((t.issued [a]).result d w) i)
    let g := (p.group? id).getD { id := id }
    (c4 → after (.join a d) s 4 ∧ after (.leave a d) s 4)
    ∧ (¬ c4 → member → after (.join a d) s 1
        ∧ ∃ m, (∀ l r, m.has l r = true ↔ g.members.has l r = true ∧ (l, r) ≠ me)
          ∧ (g.episode = none → after (.leave a d) (s.setPart t.part (p.setGroup { g with members := m })) 0)
          ∧ after (.leave a d) (leaveGroup s t.part g t.launch t.rank) 0)
    ∧ (¬ c4 → ¬ member → after (.leave a d) s 1 ∧ (c3 → after (.join a d) s 3) ∧ (¬ c3 → c2 → after (.join a d) s 2)
        ∧ (¬ c3 → ¬ c2 → ∃ m, (∀ l r, m.has l r = true ↔ g.members.has l r = true ∨ (l, r) = me)
          ∧ after (.join a d) (s.setPart t.part (p.setGroup { g with members := m })) 0))

/-- R156, R157: the work queue of a facet. WPUSH adds at the owner end, WPOP takes there, WSTEAL takes at the other end; each writes its
code, and what is removed is removed once. The victim that a facet chooses is the first facet after its steal cursor, with wrap, that
belongs to the partition, is not its own and has an item; WSTEAL with gA[63] = 1 takes from it and moves the cursor there, and where there
is none it writes 0x8000_0000_0000_0001. R158: CLAIM grants what is left, at most the request, or VLMAX where the request is 0 or larger;
NEXT moves on by the grant, gD takes the old NEXT and VL the grant, and no byte outside the counter changes. -/
def Obligations.WorkQueuesAndClaim : Prop :=
  (∀ (s : State) (t : Thread) (a d : Reg),
     let items (f : Nat) := (s.facet f).items
     let own := t.facet
     let put (f : Nat) (l : List (BitVec 63)) : State := s.setFacet f { s.facet f with items := l }
     let after (i : Instr) (srcs : List Reg) (s2 : State) (v : BitVec 64) : Prop :=
       exec i s = .next (retired s2 ((t.issued srcs).result d v) i)
     (Issues s t [a] [d] → t.det = false →
       ((t.src a).getLsbD 63 = true → after (.wpush a d) [a] s 2)
       ∧ ((t.src a).getLsbD 63 = false → 256 ≤ (items own).length → after (.wpush a d) [a] s 1)
       ∧ ((t.src a).getLsbD 63 = false → (items own).length < 256 →
           after (.wpush a d) [a] (put own (items own ++ [(t.src a).setWidth 63])) 0))
     ∧ (Issues s t [] [d] →
       (items own = [] → after (.wpop d) [] s 0x8000000000000001)
       ∧ ∀ l x, items own = l ++ [x] → after (.wpop d) [] (put own l) (x.setWidth 64))
     ∧ (Issues s t [a] [d] → (t.src a).getLsbD 63 = false →
       let f := (t.src a).toNat
       ((f = own ∨ (s.partOf t).hasFacet f = false) → after (.wsteal a d) [a] s 0x8000000000000002)
       ∧ (f ≠ own → (s.partOf t).hasFacet f = true → (items f = [] → after (.wsteal a d) [a] s 0x8000000000000001)
         ∧ ∀ x l, items f = x :: l → after (.wsteal a d) [a] (put f l) (x.setWidth 64)))
     ∧ (Issues s t [a] [d] → (t.src a).getLsbD 63 = true → (s.facet own).cursor < Config.facets →
       let fit (f : Nat) : Prop := (s.partOf t).hasFacet f = true ∧ f ≠ own ∧ items f ≠ []
       let dist (f : Nat) : Nat := (f + Config.facets - (s.facet own).cursor - 1) % Config.facets
       ((∀ g, ¬ fit g) → after (.wsteal a d) [a] s 0x8000000000000001)
       ∧ ∀ f x l, fit f → (∀ g, fit g → dist f ≤ dist g) → items f = x :: l →
         after (.wsteal a d) [a] ((s.setFacet own { s.facet own with cursor := f }).setFacet f { s.facet f with items := l })
           (x.setWidth 64)))
  ∧ (∀ (s : State) (p : Partition) (own cursor : Nat),
       let fit (f : Nat) : Prop := p.hasFacet f = true ∧ f ≠ own ∧ (s.facet f).items ≠ []
       let dist (f : Nat) : Nat := (f + Config.facets - cursor - 1) % Config.facets
       (∀ f, stealVictim s p own cursor = some f → fit f ∧ ∀ g, fit g → dist f ≤ dist g)
       ∧ (stealVictim s p own cursor = none → ∀ g, ¬ fit g))
  ∧ ∀ (s s1 : State) (t : Thread) (b a d : Reg) (key : Nat), Issues s t [a, b] [d] → aligned (t.src a) 16 = true →
    locate s (t.who s) (t.src a) .atomic false = (.at (.mem key), s1) →
    let next := s1.mem.readN key 8
    let last := s1.mem.readN (key + 8) 8
    let top := vlmax t.vtype t.splitC
    let req := if (t.src b).toNat = 0 ∨ top < (t.src b).toNat then top else (t.src b).toNat
    let grant := if next < last then min req (last - next) else 0
    ∃ s2, exec (.claim b a d) s = .next (retired s2
        (({ t.issued [a, b] with vl := BitVec.ofNat 14 grant } : Thread).result d (BitVec.ofNat 64 next)) (.claim b a d))
      ∧ s2 = { s1 with mem := s2.mem } ∧ s2.mem.readN key 8 = next + grant ∧ s2.mem.readN (key + 8) 8 = last
      ∧ ∀ q, q < key ∨ key + 16 ≤ q → s2.mem.read q = s1.mem.read q

/-- R160, R450, R161, R162, R286, R321, R266: YIELD of mode 0 writes 0 once no other thread of the facet that could issue is left to issue, and
waits for them until then; of mode 1 it writes 0 where no thread waits for the slot or no image is free, else it offers the slot: it writes 1,
and its thread stands behind it when it is saved. The model's choices (log entry 62): in supervisor mode it goes on, and is saved once that
may be; while a drain of its thread runs it waits. Any other mode is an Illegal Instruction. The waits end when what they wait for is there,
and until then the thread is blocked in them; CHWAIT waits for the runs that end and for those that an entry has still to start. -/
def Obligations.WaitsEnd : Prop :=
  (∀ (s : State) (t : Thread) (a d : Reg), Issues s t [a] [d] →
     let offers : Prop := someoneWaits s t = true ∧ popImage s (s.partOf t) ≠ none
     let offered : Thread := (t.issued [a]).result d 1
     (t.src a = 0 → t.yieldFor = none → (∀ u ∈ s.threads, u.slot ≠ t.slot → u.facet = t.facet → u.issues = false) →
       Yields s t [a] d (.yield a d) 0)
     ∧ (t.src a = 0 → t.yieldFor = none → canIssue s t ≠ [] →
       exec (.yield a d) s = .next (s.setThread { t with yieldFor := some (canIssue s t), run := .blocked (.yield a d) }))
     ∧ (∀ l, t.src a = 0 → t.yieldFor = some l → (∀ x ∈ l, x ∉ canIssue s t) → Yields s t [a] d (.yield a d) 0)
     ∧ (t.src a = 1 → ¬ offers → Yields s t [a] d (.yield a d) 0)
     ∧ (t.src a = 1 → offers → t.sup = true →
       exec (.yield a d) s = .next (retired s (({ t.issued [a] with evict := true } : Thread).result d 1) (.yield a d)))
     ∧ (t.src a = 1 → offers → t.sup = false → t.draining = true →
       exec (.yield a d) s = .next (s.setThread { t with run := .blocked (.yield a d) }))
     ∧ (t.src a = 1 → offers → t.sup = false → t.draining = false →
       exec (.yield a d) s = .next (s.setThread { offered.past (.yield a d) with run := .saving false }))
     ∧ (t.src a ≠ 0 → t.src a ≠ 1 → canStop s t = true → exec (.yield a d) s = .next (trapped s t { code := 1 } t.pc t.pc)))
  ∧ (∀ (s s1 : State) (t : Thread) (p : Pre) (sc : BitVec 3) (sb : BitVec 4) (b a d : Reg) (l : Loc),
       let blocked (s : State) (i : Instr) : Prop := exec i s = .next (s.setThread { t with run := .blocked i })
       let after (i : Instr) (srcs : List Reg) (v : BitVec 64) : Prop := exec i s = .next (retired s1 ((t.issued srcs).result d v) i)
       (Issues s t [a, b] [d] → aligned (t.src a) 8 = true → locate s (t.who s) (t.src a) .read false = (.at l, s1) →
         let w := BitVec.ofNat 64 (loadT s1 t l 8)
         (w ≠ t.src b → after (.waitw sc b a d) [a, b] w)
         ∧ (w = t.src b → exec (.waitw sc b a d) s = .next (s1.setThread { t with run := .blocked (.waitw sc b a d) })))
       ∧ (Issues s t [a] [d] → aligned (t.src a) 8 = true → locate s (t.who s) (t.src a) .read false = (.at l, s1) →
         let w := loadT s1 t l 8
         (w % 256 ≠ 0 → after (.waitc p a d) [a] (BitVec.ofNat 64 w))
         ∧ (w % 256 = 0 → exec (.waitc p a d) s = .next (s1.setThread { t with run := .blocked (.waitc p a d) })))
       ∧ (Issues s t [a] [d] → ((t.src a).toNat ≤ s.time.toNat → Yields s t [a] d (.waitt a d) s.time)
         ∧ (s.time.toNat < (t.src a).toNat → blocked s (.waitt a d)))
       ∧ (Issues s t [] [d] → ((t.chOut ≠ 0 ∨ ∃ e ∈ t.queue, owesRuns t e = true) → blocked s (.chwait p d))
         ∧ (t.chOut = 0 → (∀ e ∈ t.queue, owesRuns t e = false) → exec (.chwait p d) s
           = .next (retired s (({ t.issued [] with chStatus := 0, chFlags := 0 } : Thread).result d
             (if t.chStatus = 0 then 1 else BitVec.ofNat 64 (t.chStatus.toNat + 256 * t.chFlags.toNat))) (.chwait p d))))
       ∧ (Issues s t [] [] → (stbarReady s t sb.toNat = true → exec (.stbar p sb) s = .next (retired s (t.issued []) (.stbar p sb)))
         ∧ (stbarReady s t sb.toNat = false → blocked s (.stbar p sb))))

/-- R155, R351, R460: a non-member writes the code for it, BARG 1 and TOKSW 0x8000_0000_0000_0001; a member arrives, waits, and goes on once its
episode lets it leave. An episode completes when every participant has arrived, and stands on a slot, or has left: each that arrived may
leave, at the earliest at once and at the latest after the window of ISHAPE, with 0 after a barrier. A switch with no version table gives
0x8000_0000_0000_0003; else it waits while LATEST is before the latest minimum, and moves the partition's binding on to LATEST. The
model's choices: a non-member is answered before its minimum is looked at (log entry 56), and an arrival stands over a pre-emption, so that
its thread's episode waits only until it stands on a slot again (log entry 50). -/
def Obligations.BarrierAndSwitch : Prop :=
  (∀ (s : State) (t : Thread) (b a d : Reg), t.queue = [] → t.det = false → t.arrived = false →
    let v := t.src a
    let id : BitVec 32 := v.setWidth 32
    let after (i : Instr) (srcs : List Reg) (s2 : State) (w : BitVec 64) : Prop :=
      exec i s = .next (retired s2 ((t.issued srcs).result d w) i)
    let grp : Option Group := if v ≠ 0 ∧ v.toNat < 2 ^ 32 then (s.partOf t).group? id else none
    let member : Prop := grp.any (fun g => g.members.has t.launch t.rank) = true
    (¬ member → (Issues s t [a] [d] → after (.barg a d) [a] s 1 ∧ after (.toksw a d) [a] s 0x8000000000000001)
      ∧ (Issues s t [a, b] [d] → after (.tokswMin b a d) [a, b] s 0x8000000000000001))
    ∧ (∀ g, grp = some g → g.members.has t.launch t.rank = true →
      (Issues s t [a] [d] → ∀ w s2,
        (takeLeave (arrive s t.part g t.launch t.rank false none) t id = some (w, s2) → after (.barg a d) [a] s2 0)
        ∧ (takeLeave (arrive s t.part g t.launch t.rank true none) t id = some (w, s2) → after (.toksw a d) [a] s2 w)
        ∧ (takeLeave (arrive s t.part g t.launch t.rank false none) t id = none → exec (.barg a d) s
          = .next ((arrive s t.part g t.launch t.rank false none).setThread { t with arrived := true, run := .blocked (.barg a d) })))
      ∧ (Issues s t [a, b] [d] →
        (65536 ≤ (t.src b).toNat → after (.tokswMin b a d) [a, b] s 0x8000000000000002)
        ∧ ∀ w s2, (t.src b).toNat < 65536 →
          takeLeave (arrive s t.part g t.launch t.rank true (some ((t.src b).setWidth 16))) t id = some (w, s2) →
          after (.tokswMin b a d) [a, b] s2 w)))
  ∧ (∀ (s : State) (pn : Nat) (g : Group) (ep : Episode), pn < 16 → let p := s.parts.toList.getD pn {}
       p.group? g.id = some g → g.episode = some ep → g.members.none? = false →
       let here : Prop := ep.arrived.length + ep.left.length = ep.parts.count ∧ ∀ x ∈ ep.arrived, stands s pn x = true
       (¬ here → checkEpisode s pn g.id = s)
       ∧ (here → ep.switch = false → ∃ g', ((checkEpisode s pn g.id).parts.toList.getD pn {}).group? g.id = some g'
         ∧ g'.members = g.members ∧ (∀ y ∈ g.leaving, y ∈ g'.leaving)
         ∧ ∀ x ∈ ep.arrived, ∃ y ∈ g'.leaving, (y.launch, y.rank) = x ∧ y.result = 0 ∧ s.time.toNat ≤ y.time
           ∧ y.time ≤ s.time.toNat + 10 * fld p.ishape.toNat 32 14))
  ∧ ∀ (s : State) (pn : Nat) (minima : List (BitVec 16)), let p := s.parts.toList.getD pn {}
       (s.vtab = none → switchStep s pn minima = some (0x8000000000000003, s))
       ∧ ∀ b, s.vtab = some b →
         let v := latest s.mem b.toNat
         let m := (latestOf minima).getD v
         (verAfter m v = true → switchStep s pn minima = none)
         ∧ (verAfter m v = false → verAfter v p.ver = false → switchStep s pn minima = some (p.ver.setWidth 64, s))
         ∧ (verAfter m v = false → verAfter v p.ver = true → ∃ s', switchStep s pn minima = some (v.setWidth 64, s')
           ∧ s' = { s with mem := pinAll s.mem b.toNat v true, parts := s'.parts }
           ∧ (pn < 16 → s'.parts.toList.getD pn {} = { p with ver := v, oldVers := p.oldVers ++ [p.ver.toNat] }))

/-! ### Tile map and policy versions -/

/-- R325, R336, R337: TMAPSET of the supervisor reads its descriptor and writes the first code that applies: 1 where a field breaks its limit, 2
where the window overlaps an aperture, a range that the version table was given or another window, 3 where the window is in use; 0 registers the
window that the descriptor gives, with the slots that are free or taken and the homes of its tiles, or removes it where its tile count is
0. R334, R335, R332, R328: TFETCH and TEVICT write 2 where the address names no tile, 0 once they brought the tile where it is wanted, 1
where it was there, 3 where no slot or no place is free, and else begin the transition and wait; TCOMPACT answers −1, 0 for a tile that is
in, and the entries left; TSTAT answers the tile's state, also in transit. An entry that breaks the limits is a Bad Tile Map. The model's
choices: an instruction that waited for the transition it wanted writes 0, whoever began it (log entry 42); the trap has ACC = 1 (log entry
65); a window keeps the slots and the homes that it was registered with, and an entry led elsewhere is a Bad Tile Map (log entry 91); a
tile in transit keeps its window in use (log entry 112), and a bad entry of the free list is kept (log entry 113). -/
def Obligations.TileInstructions : Prop :=
  (∀ (s s1 : State) (t : Thread) (a d : Reg) (bs : List (BitVec 8)), Issues s t [a] [d] → t.sup = true → aligned (t.src a) 32 = true →
     t.part < 16 → readBlockC t 2 (t.src a) s = .ok bs s1 →
     let n (k len : Nat) : Nat := ofBytesLE ((bs.drop k).take len)
     let p := s1.partOf t
     let win := n 12 1
     let after (code : BitVec 64) (l : List (Nat × TiledWin)) : Prop := exec (.tmapset a d) s
       = .next (retired (s1.setPart t.part { p with windows := l }) ((t.issued [a]).result d code) (.tmapset a d))
     let c1 : Prop := 7 < win ∨ n 13 3 ≠ 0 ∨ n 36 28 ≠ 0 ∨ n 0 8 % 65536 ≠ 0 ∨ canonical (n 0 8) = false ∨ 2 ^ 24 < n 8 4
       ∨ n 16 8 % 32 ≠ 0 ∨ n 24 8 % 8 ≠ 0 ∨ n 32 4 = 0 ∨ 2 ^ 20 < n 32 4 ∨ 2 ^ 52 < n 16 8 + 32 * n 8 4 ∨ 2 ^ 52 < n 24 8 + 8 + 8 * n 32 4
     let meets (x len : Nat) : Prop := n 0 8 < x + len ∧ x < n 0 8 + 65536 * n 8 4
     let c2 : Prop := n 8 4 ≠ 0 ∧ (meets p.uva.toNat 65536 ∨ meets p.cva.toNat (2 ^ 22)
       ∨ (∃ g ∈ s1.vgiven, meets g.vbase.toNat g.size.toNat ∨ meets g.sva.toNat g.size.toNat)
       ∨ ∃ x ∈ p.windows, x.1 ≠ win ∧ meets x.2.vbase.toNat (65536 * x.2.ntile.toNat))
     let c3 : Prop := ∃ o, p.window win = some o ∧ ((∃ x ∈ p.transit, x.win = win) ∨ ∃ k, k < o.ntile.toNat ∧
       let e := o.entry s1.mem k
       e.state = 2 ∨ (e.state = 1 ∧ e.fill ≠ 0))
     let rest := p.windows.filter fun x => x.1 != win
     (c1 → after 1 p.windows) ∧ (¬ c1 → c2 → after 2 p.windows) ∧ (¬ c1 → ¬ c2 → c3 → after 3 p.windows)
     ∧ (¬ c1 → ¬ c2 → ¬ c3 → n 8 4 = 0 → after 0 rest)
     ∧ (¬ c1 → ¬ c2 → ¬ c3 → n 8 4 ≠ 0 → ∃ w : TiledWin, after 0 (rest ++ [(win, w)])
       ∧ w.vbase.toNat = n 0 8 ∧ w.ntile.toNat = n 8 4 ∧ w.map.toNat = n 16 8 ∧ w.free.toNat = n 24 8 ∧ w.cap.toNat = n 32 4
       ∧ (∀ i, i < s1.mem.readN (n 24 8) 8 → i < n 32 4 → s1.mem.readN (n 24 8 + 8 + 8 * i) 8 ∈ w.slots)
       ∧ ∀ k, k < n 8 4 → let e := w.entry s1.mem k
         (e.state = 2 → e.slot ∈ w.slots) ∧ w.home k = (e.back, e.log)))
  ∧ (∀ (s : State) (t : Thread) (a d : Reg), Issues s t [a] [d] →
       let va := t.src a
       let p := s.partOf t
       (p.tileOf va = none → Yields s t [a] d (.tfetch a d) 2 ∧ Yields s t [a] d (.tevict a d) 2
         ∧ Yields s t [a] d (.tcompact a d) (-1) ∧ Yields s t [a] d (.tstat a d) 0)
       ∧ ∀ (win : Nat) (w : TiledWin) (k off : Nat), p.tileOf va = some (win, w, k, off) →
         let e := w.entry s.mem k
         let status (st : Nat) : BitVec 64 := BitVec.ofNat 64 (e.slot / 2 ^ 16 * 2 ^ 16 + e.fill % 2 ^ 10 * 16 + st)
         let again : BitVec 64 := if t.arrived then 0 else 1
         let blocked (s2 : State) (b : Bool) (i : Instr) : Prop := exec i s = .next (s2.setThread { t with arrived := b, run := .blocked i })
         (∀ tr, p.transitOf win k = some tr → blocked s tr.arriving (.tfetch a d) ∧ blocked s (!tr.arriving) (.tevict a d)
           ∧ blocked s t.arrived (.tcompact a d) ∧ Yields s t [a] d (.tstat a d) (status (if tr.arriving then 3 else 4)))
         ∧ (p.transitOf win k = none →
           (e.state = 0 → Yields s t [a] d (.tfetch a d) 2 ∧ Yields s t [a] d (.tevict a d) 2
             ∧ Yields s t [a] d (.tcompact a d) (-1) ∧ Yields s t [a] d (.tstat a d) 0)
           ∧ ((2 < e.state ∨ (e.state ≠ 0 ∧ e.ok s p w k = false)) → canStop s t = true →
             ∀ i ∈ [Instr.tfetch a d, .tevict a d, .tcompact a d, .tstat a d],
               exec i s = .next (trapped s t { code := 9, addr := va, acc := 1, detail := BitVec.ofNat 64 k } t.pc t.pc))
           ∧ ((e.state = 1 ∨ e.state = 2) → e.ok s p w k = true →
             Yields s t [a] d (.tstat a d) (status e.state)
             ∧ (e.state = 2 → Yields s t [a] d (.tfetch a d) again ∧ Yields s t [a] d (.tcompact a d) 0
               ∧ (w.cap.toNat ≤ s.mem.readN w.free.toNat 8 + p.leaving win → Yields s t [a] d (.tevict a d) 3)
               ∧ (s.mem.readN w.free.toNat 8 + p.leaving win < w.cap.toNat → blocked (s.setPart t.part
                   { p with transit := ⟨win, k, false, BitVec.ofNat 64 e.slot⟩ :: p.transit }) true (.tevict a d)))
             ∧ (e.state = 1 → Yields s t [a] d (.tevict a d) again
               ∧ exec (.tcompact a d) s = .next (retired (compactTile s t.part win w k)
                   ((t.issued [a]).result d (BitVec.ofNat 64 (w.entry (compactTile s t.part win w k).mem k).fill)) (.tcompact a d))
               ∧ (let c := s.mem.readN w.free.toNat 8
                 let slot := s.mem.readN (w.free.toNat + 8 + 8 * (c - 1)) 8
                 let none' : Prop := c = 0 ∨ w.cap.toNat < c ∨ slot ∉ w.slots
                 (none' → Yields s t [a] d (.tfetch a d) 3)
                 ∧ (¬ none' → blocked ({ s with mem := s.mem.writeN w.free.toNat 8 (c - 1) }.setPart t.part
                   { p with transit := ⟨win, k, true, BitVec.ofNat 64 slot⟩ :: p.transit }) true (.tfetch a d)))))))

/-- R336, R338, R331: TLOG at an out tile appends its entry to the log; elsewhere it is one update of the location, an exact cell for xadd; a
st under determinism whose tile it had fetched first is combined. The model's choices: a st under determinism that had not to fetch its tile
is done in place (log entry 43: R338 and R410 pull apart), and an xadd whose cell passes its tile's end fetches the tile (log entry 105).
R352: STTOK stores gB[47:0] under the version that its partition is bound to; a higher bit of gB is an Illegal Instruction. -/
def Obligations.TileLogAndVersionStores : Prop :=
  (∀ (s s1 : State) (t : Thread) (op : BitVec 4) (b a d : Reg) (l : Loc), Issues s t [a, b] [] →
    let va := t.src a
    let v := (t.src b).toNat
    let n := if op = 1 then 32 else (MFmt.ofCode d.toNat).bytes
    let combines : Prop := t.det = true ∧ op = 7
    let after (s2 : State) : Prop := exec (.tlog op b a d) s = .next (retired s2 (t.issued [a, b]) (.tlog op b a d))
    aligned va n = true → locate s (t.who s) va .atomic (!(t.det && op = 7) && !crossesTile op va) = (.at l, s1) →
    (∀ win w tile off, l = .logged win w tile off → after (appendLog s1 t.part win w tile (tlogEntry op d v off)))
    ∧ ((∀ win w tile off, l ≠ .logged win w tile off) → op ≠ 1 → (¬ combines ∨ t.arrived = false) →
      let e := tlogEntry op d v 0
      after (storeHome s1 t.part l e.len (logUpdate e.op e.len e.signed (loadHome s1 l e.len) e.val)))
    ∧ ((∀ win w tile off, l ≠ .logged win w tile off) → op = 1 → ∀ ls s2,
      locateAll (t.who s1) .atomic (cellPieces va) s1 = .ok ls s2 →
      after (addToCell s2 t.part ls (decodeF .f32 (tlogEntry op d v 0).val)))
    ∧ ∀ key, combines → t.arrived = true → l = .mem key → key < 2 ^ 53 → key % n = 0 → t.comb.length < 8192 →
      ∃ u, exec (.tlog op b a d) s = .next (retired s1 u (.tlog op b a d)) ∧ u = { t.issued [a, b] with comb := u.comb, combVia := u.combVia }
        ∧ readSelf s1 u key n = v % 2 ^ (8 * n) ∧ ∀ q, q < key ∨ key + n ≤ q → readSelf s1 u q 1 = readSelf s1 t q 1)
  ∧ ∀ (s s1 : State) (t : Thread) (b a : Reg) (key : Nat), Issues s t [a, b] [] →
    let w := (t.src b).toNat
    (2 ^ 48 ≤ w → canStop s t = true → exec (.sttok b a) s = .next (trapped s t { code := 1 } t.pc t.pc))
    ∧ (w < 2 ^ 48 → (t.det = false ∨ 2 ^ 53 ≤ key) → aligned (t.src a) 8 = true →
      locate s (t.who s) (t.src a) .write false = (.at (.mem key), s1) →
      ∃ s2, exec (.sttok b a) s = .next (retired s2 (t.issued [a, b]) (.sttok b a)) ∧ s2 = { s1 with mem := s2.mem }
        ∧ s2.mem.readN key 8 = (s1.partOf t).ver.toNat * 2 ^ 48 + w
        ∧ ∀ q, q < key ∨ key + 8 ≤ q → s2.mem.read q = s1.mem.read q)
    ∧ (w < 2 ^ 48 → t.det = true → key < 2 ^ 53 → key % 8 = 0 → t.comb.length < 8192 → aligned (t.src a) 8 = true →
      locate s (t.who s) (t.src a) .write false = (.at (.mem key), s1) →
      ∃ u, exec (.sttok b a) s = .next (retired s1 u (.sttok b a)) ∧ u = { t.issued [a, b] with comb := u.comb, combVia := u.combVia }
        ∧ readSelf s1 u key 8 = (s1.partOf t).ver.toNat * 2 ^ 48 + w
        ∧ ∀ q, q < key ∨ key + 8 ≤ q → readSelf s1 u q 1 = readSelf s1 t q 1)

/-- R349, R350: VPUBL and its forms write the first code that applies and change nothing then: −4 with no version table, −5 where the partition
may not publish, −2 for a bad mask or a bad version, −3 where a region not named would fall too far behind, −1 where a region named has no
free slot, for which the waiting forms wait, with the version that they took, and go on from there; −3 where a slot that stays published
would fall too far behind. Else one step publishes the staging slot of every region named as the new version, which LATEST and gD take. On
one region the staging slot is published and the lowest slot free becomes staging. -/
def Obligations.PublishResults : Prop :=
  (∀ (s : State) (t : Thread) (b a d : Reg), t.queue = [] → (t.det = false ∨ t.drained = true) →
     let mask := (t.src a).toNat
     let after (i : Instr) (srcs : List Reg) (s2 : State) (v : BitVec 64) : Prop :=
       exec i s = .next (retired s2 ((t.issued srcs).result d v) i)
     let form (i : Instr) (srcs : List Reg) (given : Option (BitVec 64)) (waits : Bool) : Prop := Issues s t srcs [d] →
       (s.vtab = none → after i srcs s (-4))
       ∧ ∀ b, s.vtab = some b →
         let base := b.toNat
         let valid := validRegions s.mem base
         let g (r : Nat) : Region := readRegion s.mem base r
         let v : BitVec 16 := match given with
           | some x => x.setWidth 16
           | none => latest s.mem base + 1
         let far (v y : BitVec 16) : Prop := 2 ^ 15 ≤ (v - y).toNat
         let isFree (r j : Nat) : Prop := (g r).st j = 1 ∧ (g r).pin j = 0
         let c5 : Prop := bitAt (s.mem.readN (base + 16) 2) t.part = false
         let c2 : Prop := mask = 0 ∨ (∃ r, r < 64 ∧ bitAt mask r = true ∧ r ∉ valid)
           ∨ ∃ x, given = some x ∧ (2 ^ 16 ≤ x.toNat ∨ verAfter v (latest s.mem base) = false)
         let c3 : Prop := ∃ r ∈ valid, bitAt mask r = false ∧ far v (BitVec.ofNat 16 (g r).lastpub)
         let c1 : Prop := ∃ r ∈ valid, bitAt mask r = true ∧ ∀ j, j < 4 → ¬ isFree r j
         -- the loop and the step of version `v`
         let loop (v : BitVec 16) : Prop :=
           let c3' : Prop := ∃ r ∈ valid, bitAt mask r = true ∧ ∃ j, j < 4 ∧ (g r).st j = 1 ∧ far v ((g r).ver j)
             ∧ ¬ (isFree r j ∧ ∀ k, k < j → ¬ isFree r k)
           (c1 → (waits = false → after i srcs s (-1))
             ∧ (waits = true → exec i s = .next (s.setThread { t with pubV := some v, run := .blocked i })))
           ∧ (¬ c1 → c3' → after i srcs s (-3))
           ∧ (¬ c1 → ¬ c3' → after i srcs
             { s with mem := ((valid.filter fun r => bitAt mask r).foldl (fun m r => publishRegion m base r v) s.mem).writeN base 2 v.toNat }
             (v.setWidth 64))
         (t.pubV = none →
           (c5 → after i srcs s (-5)) ∧ (¬ c5 → c2 → after i srcs s (-2)) ∧ (¬ c5 → ¬ c2 → c3 → after i srcs s (-3))
           ∧ (¬ c5 → ¬ c2 → ¬ c3 → loop v))
         ∧ ∀ x, t.pubV = some x → loop x
     form (.vpubl a d) [a] none false ∧ form (.vpublWait a d) [a] none true
       ∧ form (.vpublAt b a d) [a, b] (some (t.src b)) false ∧ form (.vpublWaitAt b a d) [a, b] (some (t.src b)) true)
  ∧ (∀ (m : Memory) (base r st fr : Nat) (v : BitVec 16), (readRegion m base r).staging = some st → (readRegion m base r).free = some fr →
       let g := readRegion m base r
       let g' := readRegion (publishRegion m base r v) base r
       g'.st st = 1 ∧ g'.ver st = v ∧ g'.st fr = 2 ∧ g'.lastpub = v.toNat
         ∧ (∀ j, j < 4 → j ≠ st → j ≠ fr → g'.st j = g.st j) ∧ (∀ j, j < 4 → j ≠ st → g'.ver j = g.ver j)
         ∧ g'.vbase = g.vbase ∧ g'.sva = g.sva ∧ g'.size = g.size ∧ g'.slots = g.slots ∧ g'.pins = g.pins
         ∧ ∀ a, a < regionAddr base r ∨ regionAddr base r + 128 ≤ a → (publishRegion m base r v).read a = m.read a)

/-- R341, R342, R353: VPIN and VUNPIN write 0 and move one pin of every slot that the version resolves to, up and down, and no other byte of the
table or of memory; or else they write the first code that applies, with no effect. A version is after at most half of the others, never
itself, and of two different ones at most one is after the other; what a version resolves to is a published slot whose version is not after
it, and none is closer. The model's choice: VUNPIN of a version that resolves to no slot writes 1 (log entry 68). -/
def Obligations.PinInstructions : Prop :=
  (∀ (s : State) (t : Thread) (a d : Reg), Issues s t [a] [d] →
     let w := t.src a
     let v : BitVec 16 := w.setWidth 16
     (s.vtab = none → Yields s t [a] d (.vpin a d) 3 ∧ Yields s t [a] d (.vunpin a d) 3)
     ∧ ∀ b, s.vtab = some b →
       let g (m : Memory) (r : Nat) : Region := readRegion m b.toNat r
       let hits (r j : Nat) : Prop := r ∈ validRegions s.mem b.toNat ∧ (g s.mem r).resolve v = some j
       let made (s : State) (r j : Nat) : Nat := Cells.get 0 s.vpins (4 * r + j)
       let held := latest s.mem b.toNat = v ∨ ∃ p ∈ s.parts.toList, p.valid = true ∧ p.bound = true ∧ p.ver = v
       let full := ∃ r j, hits r j ∧ 65519 ≤ (g s.mem r).pin j
       let moves (i : Instr) (up : Bool) : Prop :=
         ∃ s2, exec i s = .next (retired s2 ((t.issued [a]).result d 0) i) ∧ s2 = { s with mem := s2.mem, vpins := s2.vpins }
           ∧ (∀ r j, hits r j → (g s2.mem r).pin j = (if up then (g s.mem r).pin j + 1 else (g s.mem r).pin j - 1)
             ∧ made s2 r j = if up then made s r j + 1 else made s r j - 1)
           ∧ (∀ q, (∀ r j, hits r j → q < regionAddr b.toNat r + 64 + 2 * j ∨ regionAddr b.toNat r + 66 + 2 * j ≤ q) →
             s2.mem.read q = s.mem.read q)
           ∧ ∀ r j, j < 4 → ¬ hits r j → made s2 r j = made s r j
       (65536 ≤ w.toNat → Yields s t [a] d (.vpin a d) 3 ∧ Yields s t [a] d (.vunpin a d) 3)
       ∧ (w.toNat < 65536 →
         (¬ held → Yields s t [a] d (.vpin a d) 1) ∧ (held → full → Yields s t [a] d (.vpin a d) 2)
         ∧ (held → ¬ full → moves (.vpin a d) true)
         ∧ (((∀ r j, ¬ hits r j) ∨ ∃ r j, hits r j ∧ made s r j = 0) → Yields s t [a] d (.vunpin a d) 1)
         ∧ ((∃ r j, hits r j) → (∀ r j, hits r j → made s r j ≠ 0) → moves (.vunpin a d) false)))
  ∧ ((∀ x y : BitVec 16, verAfter x x = false ∧ (verAfter x y = true → verAfter y x = false)
       ∧ (x ≠ y → (x - y).toNat ≠ 2 ^ 15 → verAfter x y = true ∨ verAfter y x = true))
     ∧ ∀ (g : Region) (b : BitVec 16),
       let fit (j : Nat) : Prop := j < 4 ∧ g.st j = 1 ∧ verAfter (g.ver j) b = false
       (∀ j, g.resolve b = some j → fit j ∧ ∀ k, fit k → (b - g.ver j).toNat ≤ (b - g.ver k).toNat)
       ∧ (g.resolve b = none → ∀ k, ¬ fit k))

/-! ### Streams, queue registers and the other registers of the CTL major -/

/-- R250 to R252, R254 to R256, R261: SBIND binds a block that its descriptor admits to a free register at position 0; the checks in the order of
R254 refuse it (that its first step asks vD < N is log entry 95's reading). SUNBIND frees a bound block and
delivers its position, SPOS delivers it, SSKIP moves it on, never past the length; of a block that is not bound each is an Illegal
Instruction. SBIND.Q binds a queue register to a free register, SUNBIND.Q frees it and delivers how many entries it holds, which stay in it.
The model's choices: SUNBIND.Q frees first, so its result meets no queue register that it frees (log entry 59); SBIND.Q admits a vector
register beyond the split (log entry 95, second half). -/
def Obligations.StreamBlocks : Prop :=
  (∀ (s s1 : State) (t : Thread) (p : Pre) (n : BitVec 3) (a d : Reg) (bs : List (BitVec 8)), Issues s t [a] [] →
     let r := reg6 (preDh p) d
     let g := 2 ^ (parseStream bs).grp.toNat
     let trap (s : State) (tr : Trap) : Prop := exec (.sbind p n a d) s = .next (trapped s t tr t.pc t.pc)
     let free : Prop := t.blk n = none ∧ r.toNat < nregsOf t.splitC ∧ t.vecBound r 1 = false
     (¬ free → canStop s t = true → trap s { code := 1 })
     ∧ (free → aligned (t.src a) 32 = false → canStop s t = true → trap s { code := 2, addr := t.src a, acc := 1 })
     ∧ (free → aligned (t.src a) 32 = true → readBlockC t 3 (t.src a) s = .ok bs s1 →
       let trap1 (tr : Trap) : Prop := exec (.sbind p n a d) s = .next (trapped s1 t tr t.pc t.pc)
       let fits : Prop := r.toNat % g = 0 ∧ r.toNat + g ≤ nregsOf t.splitC ∧ t.vecBound r g = false
       (streamDescOk bs = true → fits →
         ∃ u, exec (.sbind p n a d) s = .next (retired s1 u (.sbind p n a d)) ∧ u = { t.issued [a] with streams := u.streams }
           ∧ u.blk n = some { desc := parseStream bs, reg := r, pos := 0 } ∧ ∀ m, m ≠ n → u.blk m = t.blk m)
       ∧ (streamDescOk bs = true → ¬ fits → canStop s1 t = true → trap1 { code := 1 })
       ∧ (streamDescOk bs = false → canStop s1 t = true → trap1 { code := 14, addr := t.src a, acc := 1 })))
  ∧ (∀ (s : State) (t : Thread) (p : Pre) (n : BitVec 3) (a d : Reg),
       let trap : Out := .next (trapped s t { code := 1 } t.pc t.pc)
       (∀ b, t.blk n = some b →
         (Issues s t [] [d] → Yields s t [] d (.spos p n d) b.pos
           ∧ exec (.sunbind p n d) s = .next (retired s (((t.issued []).setBlk n none).result d b.pos) (.sunbind p n d)))
         ∧ (Issues s t [a] [] → exec (.sskip p n a) s = .next (retired s ((t.issued [a]).setBlk n
             (some { b with pos := BitVec.ofNat 64 (min (b.pos.toNat + (t.src a).toNat) b.len) })) (.sskip p n a))))
       ∧ (t.blk n = none → canStop s t = true →
         (Issues s t [] [d] → exec (.spos p n d) s = trap ∧ exec (.sunbind p n d) s = trap)
         ∧ (Issues s t [a] [] → exec (.sskip p n a) s = trap)))
  ∧ (∀ (s : State) (t : Thread) (p : Pre) (n : BitVec 3) (d : Reg), Issues s t [] [] →
       let q := t.qAt n.toNat
       let r := reg6 (preDh p) d
       (q.general = none → t.boundQ d = none → exec (.sbindQGeneral p n d) s =
         .next (retired s ((t.issued []).setQ n.toNat { q with general := some d }) (.sbindQGeneral p n d)))
       ∧ (q.vector = none → t.vecBound r 1 = false → exec (.sbindQVector p n d) s =
         .next (retired s ((t.issued []).setQ n.toNat { q with vector := some r }) (.sbindQVector p n d)))
       ∧ ((q.general ≠ none ∨ q.vector ≠ none) → t.isPending d = false →
         let u := (t.issued []).setQ n.toNat { q with general := none, vector := none }
         u.dstFull [] d = false →
         exec (.sunbindQ p n d) s = .next (retired s (u.result d (BitVec.ofNat 64 q.entries.length)) (.sunbindQ p n d)))
       ∧ (canStop s t = true → let trap : Out := .next (trapped s t { code := 1 } t.pc t.pc)
         ((q.general ≠ none ∨ t.boundQ d ≠ none) → exec (.sbindQGeneral p n d) s = trap)
         ∧ ((q.vector ≠ none ∨ t.vecBound r 1 = true) → exec (.sbindQVector p n d) s = trap)
         ∧ (q.general = none → q.vector = none → exec (.sunbindQ p n d) s = trap)))

/-- R296, R310, R413 to R416: BSET and TCFG set a bank-set register, and TREE with ADDR, where their values are within the limits. NSET forms a
group register from a descriptor within the limits, with its signature and sequence number 0; NSET.F a fabric stream register for one
member of a group; NSIG and its forms read a field of a group register, 0 where it is not valid. -/
def Obligations.ControlRegisters : Prop :=
  (∀ (s : State) (t : Thread) (p : Pre) (b a d : Reg), Issues s t [a, b] [] →
     let base := t.src a
     let v := (t.src b).toNat
     (1 ≤ v % 2 ^ 12 → v % 2 ^ 12 ≤ 2048 → fld v 12 4 = 0 → 12 ≤ fld v 16 6 → fld v 16 6 ≤ 40 → v < 2 ^ 22 →
       (fld base.toNat 56 8 = 0 ∨ fld base.toNat 56 8 = 255) →
       exec (.bset p b a d) s = .next (retired s
         { t.issued [a, b] with b := t.b.setIfInBounds d.toNat (BitVec.ofNat 128 (base.toNat * 2 ^ 64 + v)) } (.bset p b a d)))
     ∧ (base.toNat < 2 ^ 6 → fld base.toNat 4 2 ≤ 1 → (bitAt base.toNat 3 = true → base.toNat % 8 = 0) →
       (fld base.toNat 4 2 = 1 → v % 8 = 0) →
       exec (.tcfg p b a) s = .next (retired s { t.issued [a, b] with tree := base, treeAddr := t.src b } (.tcfg p b a))))
  ∧ (∀ (s s1 : State) (t : Thread) (p : Pre) (b a d : Reg) (bs : List (BitVec 8)),
       (Issues s t [a] [] → aligned (t.src a) 32 = true → readBlockC t 1 (t.src a) s = .ok bs s1 →
         let n (k len : Nat) : Nat := ofBytesLE ((bs.drop k).take len)
         let rank := if n 8 4 = 2 ^ 32 - 1 then t.rank else n 8 4
         1 ≤ n 12 4 → n 12 4 ≤ 2 ^ 20 → rank < n 12 4 → n 16 1 ≤ 7 → n 17 3 = 0 → n 24 8 = 0 → d.toNat < 8 →
         ∃ u, exec (.nset p a d) s = .next (retired s1 u (.nset p a d)) ∧ u = { t.issued [a] with n := u.n }
           ∧ (∀ r : Reg, r.toNat ≠ d.toNat → u.grp r = t.grp r)
           ∧ grpValid (u.grp d) = true ∧ grpSeq (u.grp d) = 0 ∧ (grpComm (u.grp d)).toNat = n 0 8 ∧ (grpRank (u.grp d)).toNat = rank
           ∧ (grpCount (u.grp d)).toNat = n 12 4 ∧ (grpPlan (u.grp d)).toNat = n 20 4 ∧ (grpVc (u.grp d)).toNat = n 16 1
           ∧ grpSig (u.grp d) = groupSig (grpComm (u.grp d)) (grpCount (u.grp d)) (grpPlan (u.grp d)) (grpVc (u.grp d)))
       ∧ (Issues s t [b] [] → let v := (t.src b).toNat
         let g := t.grp a
         grpValid g = true → v < 2 ^ 49 → v % 2 ^ 32 < (grpCount g).toNat → d.toNat < 4 →
         ∃ u, exec (.nsetF p b a d) s = .next (retired s u (.nsetF p b a d)) ∧ u = { t.issued [b] with f := u.f }
           ∧ let r := u.f.toList.getD d.toNat 0
             fsValid r = true ∧ fsMseq r = 0 ∧ (fsPeer r).toNat = v % 2 ^ 32 ∧ (fsTag r).toNat = fld v 32 16 ∧ fsDir r = bitAt v 48
             ∧ fsComm r = grpComm g ∧ fsRank r = grpRank g ∧ fsPlan r = grpPlan g ∧ fsVc r = grpVc g)
       ∧ (Issues s t [] [d] → let g := t.grp a
         let f (v : BitVec 32) : BitVec 64 := if grpValid g then v.setWidth 64 else 0
         Yields s t [] d (.nsig p a d) (f (grpSig g)) ∧ Yields s t [] d (.nsigRank p a d) (f (grpRank g))
         ∧ Yields s t [] d (.nsigCount p a d) (f (grpCount g)) ∧ Yields s t [] d (.nsigSeq p a d) (f (grpSeq g))))

/-! ### The vector queue -/

/-- R163, R189, R192, R217, R219 to R221, R255, R262: a vector, mask, permutation, reduction or chain instruction, and a compact form as the
VV instruction it stands for, that meets the checks of its push is pushed with what it captures, and the thread goes on; no vector register,
mask, general register, flag or byte of memory changes. -/
def Obligations.VectorPushes : Prop :=
  ∀ (s : State) (t : Thread) (o : VOps) (b d : Reg),
    (∀ i ∈ [
      Instr.vaddVv o, .vaddVg o, .vaddVi o, .vsubVv o, .vsubVg o, .vrsubVg o, .vrsubVi o, .vmulVv o, .vmulVg o, .vmulhVv o,
      .vmulhVg o, .vmaccVv o, .vmaccVg o, .vnmsacVv o, .vnmsacVg o, .vwaddVv o, .vwaddVg o, .vwmulVv o, .vwmulVg o, .vwmaccVv o,
      .vwmaccVg o, .vnshrVv o, .vnshrVg o, .vnshrVi o, .vsaddVv o, .vsaddVg o, .vsaddVi o, .vssubVv o, .vssubVg o, .vavgVv o,
      .vavgVg o, .vminVv o, .vminVg o, .vmaxVv o, .vmaxVg o, .vandVv o, .vandVg o, .vandVi o, .vorVv o, .vorVg o, .vorVi o,
      .vxorVv o, .vxorVg o, .vxorVi o, .vshlVv o, .vshlVg o, .vshlVi o, .vshrVv o, .vshrVg o, .vshrVi o, .vsarVv o, .vsarVg o,
      .vsarVi o, .vmergeVv o, .vmergeVg o, .vmergeVi o, .vmvVv o, .vmvVg o, .vmvVi o, .vcmpEqVv o, .vcmpEqVg o, .vcmpEqVi o,
      .vcmpNeVv o, .vcmpNeVg o, .vcmpNeVi o, .vcmpLtVv o, .vcmpLtVg o, .vcmpLtVi o, .vcmpLeVv o, .vcmpLeVg o, .vcmpLeVi o,
      .vcmpGtVv o, .vcmpGtVg o, .vcmpGtVi o, .vcmpGeVv o, .vcmpGeVg o, .vcmpGeVi o, .vfaddVv o, .vfaddVg o, .vfsubVv o, .vfsubVg o,
      .vfmulVv o, .vfmulVg o, .vfmaVv o, .vfmaVg o, .vfnmaVv o, .vfnmaVg o, .vfdivVv o, .vfdivVg o, .vfsqrt o, .vfminVv o,
      .vfminVg o, .vfmaxVv o, .vfmaxVg o, .vfcmpEqVv o, .vfcmpEqVg o, .vfcmpNeVv o, .vfcmpNeVg o, .vfcmpLtVv o, .vfcmpLtVg o,
      .vfcmpLeVv o, .vfcmpLeVg o, .vfcmpGtVv o, .vfcmpGtVg o, .vfcmpGeVv o, .vfcmpGeVg o, .vfcmpUnVv o, .vfcmpUnVg o, .mand o,
      .mor o, .mxor o, .mnot o, .mpopc o, .mffs o, .mset o, .vreconf o, .vslideu o, .vslided o, .vgather o, .vcompress o, .viota o,
      .vext o, .vins o, .vredsum o, .vredmax o, .vredmin o, .vfredsum o, .vfredmax o, .vfredmin o, .vfredms o, .vfcvt o,
      .vfcvtEf o, .vrec o, .vendrec o, .vreplay o],
      MayPush s t i → Pushes s t i)
    ∧ ∀ i ∈ [
      Instr.cvVaddI32 b d, .cvVsubI32 b d, .cvVmulI32 b d, .cvVmaccI32 b d, .cvVmaxI32 b d, .cvVxorI32 b d, .cvVfaddF32 b d,
      .cvVfmulF32 b d, .cvVfmaF32 b d, .cvVfmaxF32 b d, .cvVfaddBf16 b d, .cvVfmulBf16 b d, .cvVfmaBf16 b d, .cvVfmaxBf16 b d],
      MayPush s t i → Pushes s t i

/-- R163, R226, R257, R263, R283, R287, R319, R417: the same of the memory, plural, vector atomic, lattice, tile-register, move, token and fabric
instructions. -/
def Obligations.MemoryAndEnginePushes : Prop :=
  ∀ (s : State) (t : Thread) (o : MOps) (x : XOps) (k : KOps),
    (∀ i ∈ [
      Instr.vld o, .vlds o, .vldx o, .vldseg o, .vldff o, .cbld o, .vfill o, .vst o, .vsts o, .vstx o, .vstseg o, .vspill o,
      .ldpSum o, .ldpMax o, .ldpMin o, .ldpMaxsum o, .ldpAnd o, .ldpOr o, .ldpXor o, .ldpFirst o, .stp o, .chrun o, .vamoAdd o,
      .vamoMin o, .vamoMax o, .vamoAnd o, .vamoOr o, .vamoXor o, .vamoSwap o, .vamoCas o, .vamooAdd o, .vamooMin o, .vamooMax o,
      .vamooAnd o, .vamooOr o, .vamooXor o, .vamooSwap o, .vamooCas o, .vsend o, .vrecv o],
      MayPush s t i → Pushes s t i)
    ∧ (∀ i ∈ [
      Instr.aalloc x, .aallocWait x, .afree x, .aclr x, .ldws x, .swpl x, .mstream x, .mopa x, .mops x, .axtr x, .axtc x, .asave x,
      .aload x, .aaddi x, .trow x, .tcol x, .tld x, .tst x, .tmov x, .tokp x, .tokw x, .vfence x, .vfenceD x],
      MayPush s t i → Pushes s t i)
    ∧ (MayPush s t (.vcoll k) → Pushes s t (.vcoll k))

/-- R164, R168, R289, R290: the next entry in push order that may start, and that touches no stream block and no queue register, pops its token,
performs its elements from VSTART to VL, and is complete, under way, faulted at an element, standing at an element, or not yet accepted; one
whose token or whose place for a token is not there stays. One that the V stream's held stores must not outlive has them performed first. Of
the partition and the facet only the lattice's credit and rotation change beside what its effect changes (R456). The model's choices: the
trap of an entry waits 16 thread cycles while its thread can issue (log entry 83), and an entry holds from its start the room for what its
commit pushes (log entry 84). -/
def Obligations.EntryStarts : Prop :=
  ∀ (s : State) (t : Thread) (before es : List QEntry) (e : QEntry), s.thread? t.slot = some t → t.vectorRuns = true →
    t.queue = before ++ e :: es → (∀ x ∈ t.queue, x.live = false) → (∀ x ∈ before, x.started = true) → e.started = false →
    t.replay = none → (∀ o, e.instr ≠ .vreplay o) → readyTokp s t [] t.queue = none → e.blks = [] → e.qs = [] →
    e.strips = [] → e.pages = [] → e.stopAt = none → e.late = false →
    let q := qForm e.instr
    mayStart s t before e = true → e.spent q = false → (isLat q = true → latticeFree s t = true) →
    let room := roomFor t e (e.info t.splitV)
    (tokensReady t e q = false → isLat q = false → exec (.entryStart t.slot) s = .next s)
    ∧ (tokensReady t e q = true → roomReady t e (e.info t.splitV) = true →
      let t1 := if e.popped then t else match q.waits with
        | some k => t.popTok k
        | none => t
      let e1 := { e with popped := true, base := e.vstart }
      let v := settleV s t1 q
      let run := if emptyRun e1 then Eff.done v.1 v.2 else effect v.1 v.2 e1 (e.span q)
      let at' (f : Nat) : BitVec 14 := if q.whole then 0 else BitVec.ofNat 14 f
      let after (s2 : State) (u : Thread) : Prop :=
        ∃ p f, exec (.entryStart t.slot) s = .next { s2.setThread u with parts := p, facets := f }
          ∧ (isLat q = false → p = s2.parts ∧ f = s2.facets)
          ∧ (∀ k, k ≠ t.part → p.toList.getD k {} = s2.parts.toList.getD k {})
          ∧ ∀ k, k ≠ t.facet → State.facet { s2 with facets := f } k = s2.facet k
      (∀ s2 u, run = .done s2 u → after s2 (((u.reserveFor q).upd e.seq fun x =>
          { e1 with started := true, done := true, result := x.result, outq := [], room := room }).retire e q (engineTakes s s2 q)))
      ∧ (∀ s2 u, run = .started s2 u → after s2 ((u.reserveFor q).upd e.seq fun x =>
          { e1 with started := true, result := x.result, began := s.time, room := room }))
      ∧ (∀ s2 u f tr, run = .fault s2 u f tr → after s2 (u.upd e.seq fun _ =>
          { e1 with started := true, vstart := at' f, fault := some tr, skip := tr.code == 18, room := [], trapFrom := s.cyc + 16 }))
      ∧ ∀ s2 u f, run = .hold s2 u f →
        (at' f = e.vstart → after s2 (u.upd e.seq fun _ => { e1 with popped := e.popped || q.waits.isSome, base := e.base }))
        ∧ (at' f ≠ e.vstart → after s2 ((u.reserveFor q).upd e.seq fun x =>
          { e1 with started := true, live := true, vstart := at' f, room := room, pages := x.pages, stopAt := x.stopAt })))

/-- R164, R192, R263, R443, R449, R472: the oldest entry, once complete and with room for what it pushes, commits: it leaves the queue, VSTART is
0, its general register takes its result and its queue registers what it pushes; the stores that it holds are performed. An entry that has
not completed, or that finds no room, does not commit. One that faulted raises its trap once the vector side can stop, with its own
address as the trapping one. It and every entry behind it then stand in the queue in order, none started: an incomplete one at the element
it had reached, a CHRUN with commands to place after the last whole channel group placed. The model's choice (log entries 48 and 85): a
complete one stands past its end, a whole one at 1, so that its replay performs nothing. -/
def Obligations.EntryCommits : Prop :=
  ∀ (s : State) (t : Thread) (e : QEntry) (es : List QEntry), s.thread? t.slot = some t → t.vectorRuns = true → t.queue = e :: es →
    (e.fault = none → e.done = true → commitRoom t e = true →
      let own (v : VStore) : Bool := v.seq == e.seq
      ∃ u, exec (.entryCommit t.slot) s = .next ({ s with mem := performV s.mem (t.vbuf.filter own) }.setThread u) ∧ u.slot = t.slot
        ∧ u.vbuf = (t.vbuf.filter fun v => !own v) ∧ u.queue = es ∧ u.vstart = 0 ∧ u.pc = t.pc
        ∧ u.vreg = t.vreg ∧ u.m = t.m ∧ u.fflags = t.fflags ∧ u.run = t.run
        ∧ (∀ d v, pendingReg e.instr = some d → e.result = some v → d ≠ 0 → u.rd d = v)
        ∧ (∀ r, pendingReg e.instr ≠ some r → u.rd r = t.rd r)
        ∧ ((pendingReg e.instr).bind t.boundQ = none → ∀ i, i < 8 →
          (u.qAt i).entries = (t.qAt i).entries ++ ((e.outq.filter fun x => x.1 == i).map Prod.snd).flatten))
    ∧ (e.fault = none → (e.done = false ∨ commitRoom t e = false) → exec (.entryCommit t.slot) s = .next s)
    ∧ ∀ tr, e.fault = some tr → e.done = false → canStop s t = true → (t.issues && s.cyc < e.trapFrom) = false →
      let w := finishAmo t
      ∃ (s1 : State) (u : Thread), exec (.entryCommit t.slot) s = .next (enterTrap s1 u tr true w.pc e.pc e.skip)
        ∧ u.slot = t.slot ∧ u.vreg = t.vreg ∧ u.m = t.m ∧ u.sup = t.sup ∧ u.g = w.g ∧ s1.mem = performV s.mem t.vbuf
        ∧ u.queue.length = t.queue.length
        ∧ ∀ k : Nat, ∀ x y, t.queue[k]? = some x → u.queue[k]? = some y →
          y.started = false ∧ y.done = false ∧ y.seq = x.seq ∧ y.instr = x.instr ∧ y.pc = x.pc ∧ y.vl = x.vl ∧ y.ga = x.ga ∧ y.gb = x.gb
          ∧ y.gc = x.gc ∧ y.image = x.image ∧ y.fault = x.fault
          ∧ (let cut (o : ChrunOp) : Prop := o ∈ s.chrunsOf t ∧ o.unplaced ≠ [] ∧ ownEntry o x = true
            x.done = false → ((∀ o, ¬ cut o) → y.vstart = x.vstart)
              ∧ ((∃ o, cut o) → ∃ o, cut o ∧ y.vstart = BitVec.ofNat 14 o.groupEnd))
          ∧ (x.done = true → y.popped = true
            ∧ y.vstart = if (qForm x.instr).whole then 1 else BitVec.ofNat 14 (x.span (qForm x.instr)))

/-- R174 to R176, R191, R195, R198 to R203, R102: what integer, fixed-point, shift, compare and floating-point vector instructions put into
their destination, up to the element that they are performed to: wrapping and saturating sums, halves of sums rounded by XRM, products and
multiply-accumulates, extremes, bitwise results, shifts by the count modulo EW, choices by a mask; widened results and narrowed ones; masks of
compares; floating-point results in the mode of FRM. Every active element raises its flags, and no byte of memory changes. -/
def Obligations.VectorElementResults : Prop :=
  ∀ (s : State) (t : Thread) (e : QEntry) (o : VOps) (limit : Nat), e.vstart.toNat ≤ limit → limit ≤ e.vl.toNat → o.d.toNat < 8 →
    let d := e.opnd o.d6
    let n := d.ew
    let el (v : Opnd) (m : BitVec 12) (k : Nat) : Nat := t.srcEl v m e.vl.toNat k
    let a := el (e.opnd o.a6) (preMa o.pre)
    let vec := el (e.opnd o.b6) (preMb o.pre)
    let gen (_ : Nat) : Nat := e.gb.toNat % 2 ^ n
    let imm (_ : Nat) : Nat := (o.b.toInt % 2 ^ n).toNat
    let unsigned := o.e.getLsbD 2
    let num (w v : Nat) : Int := if unsigned then Int.ofNat v else toSigned w v
    let low (w : Nat) : Int := if unsigned then 0 else -(2 ^ (w - 1))
    let high (w : Nat) : Int := if unsigned then 2 ^ w - 1 else 2 ^ (w - 1) - 1
    let wraps (w : Nat) (x : Int) : Nat × Flg := ((x % 2 ^ w).toNat, 0)
    let clamps (x : Int) : Nat × Flg :=
      if x < low n then (((low n) % 2 ^ n).toNat, flSAT) else if high n < x then ((high n).toNat, flSAT) else wraps n x
    let gov : Option Nat := if o.vm then some (preMask o.pre).toNat else none
    let full : Bool := decide (limit = e.vl.toNat)
    let puts (i : Instr) (g : Option Nat) (w : Opnd) (r : Nat → Nat × Flg) : Prop :=
      ∃ u, effect s t { e with instr := i } limit = .done s u ∧ Written t u e g w e.vstart.toNat limit full r ∧ u.queue = t.queue
    let sets (i : Instr) (r : Nat → Bool × Flg) : Prop :=
      ∃ u, effect s t { e with instr := i } limit = .done s u ∧ MaskWritten t u e gov o.d.toNat limit full r
    let ints (l : List (Instr × (Nat → Nat))) (f : Int → Int → Int → Nat × Flg) : Prop :=
      ∀ p ∈ l, puts p.1 gov d fun k => f (num n (a k)) (num n (p.2 k)) (num n (t.el d k))
    let bits (l : List (Instr × (Nat → Nat))) (f : Nat → Nat → Nat) : Prop := ∀ p ∈ l, puts p.1 gov d fun k => (f (a k) (p.2 k), 0)
    -- one width
    (ints [(.vaddVv o, vec), (.vaddVg o, gen), (.vaddVi o, imm)] (fun x y _ => wraps n (x + y))
      ∧ ints [(.vsubVv o, vec), (.vsubVg o, gen)] (fun x y _ => wraps n (x - y))
      ∧ ints [(.vrsubVg o, gen), (.vrsubVi o, imm)] (fun x y _ => wraps n (y - x))
      ∧ ints [(.vmulVv o, vec), (.vmulVg o, gen)] (fun x y _ => wraps n (x * y))
      ∧ ints [(.vmulhVv o, vec), (.vmulhVg o, gen)] (fun x y _ => wraps n (x * y / 2 ^ n))
      ∧ ints [(.vmaccVv o, vec), (.vmaccVg o, gen)] (fun x y z => wraps n (z + x * y))
      ∧ ints [(.vnmsacVv o, vec), (.vnmsacVg o, gen)] (fun x y z => wraps n (z - x * y))
      ∧ ints [(.vsaddVv o, vec), (.vsaddVg o, gen), (.vsaddVi o, imm)] (fun x y _ => clamps (x + y))
      ∧ ints [(.vssubVv o, vec), (.vssubVg o, gen)] (fun x y _ => clamps (x - y))
      ∧ ints [(.vavgVv o, vec), (.vavgVg o, gen)] (fun x y _ => wraps n (roundoff (x + y) 1 (XMode.ofCode e.xrm.toNat)))
      ∧ ints [(.vminVv o, vec), (.vminVg o, gen)] (fun x y _ => wraps n (min x y))
      ∧ ints [(.vmaxVv o, vec), (.vmaxVg o, gen)] (fun x y _ => wraps n (max x y))
      ∧ bits [(.vandVv o, vec), (.vandVg o, gen), (.vandVi o, imm)] (· &&& ·)
      ∧ bits [(.vorVv o, vec), (.vorVg o, gen), (.vorVi o, imm)] (· ||| ·)
      ∧ bits [(.vxorVv o, vec), (.vxorVg o, gen), (.vxorVi o, imm)] (· ^^^ ·)
      ∧ bits [(.vmvVv o, vec), (.vmvVg o, gen), (.vmvVi o, imm)] (fun _ y => y)
      ∧ ∀ p ∈ [(Instr.vmergeVv o, vec), (.vmergeVg o, gen), (.vmergeVi o, imm)],
          puts p.1 none d fun k => (if t.active gov k = true then p.2 k else a k, 0))
    -- shifts and narrowing, by a count that a scalar gives whole
    ∧ (let count (w : Nat) (i : Nat) (k : Nat) : Nat :=
        if i = 0 then vec k % w else if i = 1 then e.gb.toNat % w else (o.b.toInt % (w : Int)).toNat
      (∀ p ∈ [(Instr.vshlVv o, 0), (.vshlVg o, 1), (.vshlVi o, 2)], puts p.1 gov d fun k => (a k * 2 ^ count n p.2 k % 2 ^ n, 0))
      ∧ (∀ p ∈ [(Instr.vshrVv o, 0), (.vshrVg o, 1), (.vshrVi o, 2)], puts p.1 gov d fun k => (a k / 2 ^ count n p.2 k, 0))
      ∧ (∀ p ∈ [(Instr.vsarVv o, 0), (.vsarVg o, 1), (.vsarVi o, 2)],
        puts p.1 gov d fun k => wraps n (toSigned n (a k) / 2 ^ count n p.2 k))
      ∧ ∀ p ∈ [(Instr.vnshrVv o, 0), (.vnshrVg o, 1), (.vnshrVi o, 2)], puts p.1 gov d fun k =>
          clamps (roundoff (num (2 * n) (el (e.wide o.a6) (preMa o.pre) k)) (count (2 * n) p.2 k) (XMode.ofCode e.xrm.toNat)))
    -- twice the width
    ∧ (let w := e.wide o.d6
      let wides (l : List (Instr × (Nat → Nat))) (f : Int → Int → Int → Int) : Prop :=
        ∀ p ∈ l, puts p.1 gov w fun k => wraps (2 * n) (f (num n (a k)) (num n (p.2 k)) (t.el w k))
      wides [(.vwaddVv o, vec), (.vwaddVg o, gen)] (fun x y _ => x + y) ∧ wides [(.vwmulVv o, vec), (.vwmulVg o, gen)] (fun x y _ => x * y)
      ∧ wides [(.vwmaccVv o, vec), (.vwmaccVg o, gen)] (fun x y z => z + x * y))
    -- compares
    ∧ (let holds (c : Nat) (x y : Int) : Bool := match c with
        | 0 => x = y
        | 1 => x ≠ y
        | 2 => x < y
        | 3 => x ≤ y
        | 4 => y < x
        | _ => y ≤ x
      ∀ p ∈ [(Instr.vcmpEqVv o, 0, vec), (.vcmpEqVg o, 0, gen), (.vcmpEqVi o, 0, imm), (.vcmpNeVv o, 1, vec), (.vcmpNeVg o, 1, gen),
          (.vcmpNeVi o, 1, imm), (.vcmpLtVv o, 2, vec), (.vcmpLtVg o, 2, gen), (.vcmpLtVi o, 2, imm), (.vcmpLeVv o, 3, vec),
          (.vcmpLeVg o, 3, gen), (.vcmpLeVi o, 3, imm), (.vcmpGtVv o, 4, vec), (.vcmpGtVg o, 4, gen), (.vcmpGtVi o, 4, imm),
          (.vcmpGeVv o, 5, vec), (.vcmpGeVg o, 5, gen), (.vcmpGeVi o, 5, imm)],
        sets p.1 fun k => (holds p.2.1 (num n (a k)) (num n (p.2.2 k)), 0))
    -- floating point
    ∧ (let f : Fmt := if o.e = 1 then .bf16 else .f32
      let m := Rm.ofCode e.frm.toNat
      let h (k : Nat) : Nat := srHash e.seed k 0
      let floats (l : List (Instr × (Nat → Nat))) (g : (x y z k : Nat) → Res) : Prop :=
        ∀ p ∈ l, puts p.1 gov d fun k => let r := g (a k) (p.2 k) (t.el d k) k
          (r.bits, r.fl)
      floats [(.vfaddVv o, vec), (.vfaddVg o, gen)] (fun x y _ k => fAdd f x y m (h k))
      ∧ floats [(.vfsubVv o, vec), (.vfsubVg o, gen)] (fun x y _ k => fSub f x y m (h k))
      ∧ floats [(.vfmulVv o, vec), (.vfmulVg o, gen)] (fun x y _ k => fMul f x y m (h k))
      ∧ floats [(.vfmaVv o, vec), (.vfmaVg o, gen)] (fun x y z k => fFma f false x y z m (h k))
      ∧ floats [(.vfnmaVv o, vec), (.vfnmaVg o, gen)] (fun x y z k => fFma f true x y z m (h k))
      ∧ floats [(.vfdivVv o, vec), (.vfdivVg o, gen)] (fun x y _ k => fDiv f x y m (h k))
      ∧ floats [(.vfsqrt o, imm)] (fun x _ _ k => fSqrt f x m (h k))
      ∧ floats [(.vfminVv o, vec), (.vfminVg o, gen)] (fun x y _ _ => fMinMax f false x y)
      ∧ floats [(.vfmaxVv o, vec), (.vfmaxVg o, gen)] (fun x y _ _ => fMinMax f true x y)
      ∧ ∀ p ∈ [(Instr.vfcmpEqVv o, 0, vec), (.vfcmpEqVg o, 0, gen), (.vfcmpNeVv o, 1, vec), (.vfcmpNeVg o, 1, gen),
          (.vfcmpLtVv o, 2, vec), (.vfcmpLtVg o, 2, gen), (.vfcmpLeVv o, 3, vec), (.vfcmpLeVg o, 3, gen), (.vfcmpGtVv o, 4, vec),
          (.vfcmpGtVg o, 4, gen), (.vfcmpGeVv o, 5, vec), (.vfcmpGeVg o, 5, gen), (.vfcmpUnVv o, 6, vec), (.vfcmpUnVg o, 6, gen)],
        sets p.1 fun k => fCmp f p.2.1 (a k) (p.2.2 k))

/-- R207 to R216, R204, R205, R111, R192: VSLIDEU and VSLIDED move elements by gB; VGATHER and VCOMPRESS choose them, VIOTA counts mask bits, VINS
writes one, MSET makes a mask, MFFS and VEXT give a general result. A reduction combines the active elements of vA, in order, with the initial
operand; with no active element it gives that, with VL = 0 it writes nothing, and both set VEMPTY. VFCVT converts each element, and
VFCVT.EF carries each error to the next. -/
def Obligations.PermutationAndReductionResults : Prop :=
  ∀ (s : State) (t : Thread) (e : QEntry) (o : VOps) (limit : Nat), e.vstart.toNat ≤ limit → limit ≤ e.vl.toNat → o.d.toNat < 8 →
    let vl := e.vl.toNat
    let d := e.opnd o.d6
    let n := d.ew
    let a (k : Nat) : Nat := t.el (e.opnd o.a6) k
    let b (k : Nat) : Nat := t.el (e.opnd o.b6) k
    let gov : Option Nat := if o.vm then some (preMask o.pre).toNat else none
    let full : Bool := decide (limit = vl)
    let shift := e.gb.toNat
    let mode := if o.e = 7 then Rm.ofCode e.frm.toNat else Rm.ofCode o.e.toNat
    let h (k : Nat) : Nat := srHash e.seed k 0
    let eff (i : Instr) : Eff := effect s t { e with instr := i } limit
    let puts (i : Instr) (w : Opnd) (r : Nat → Nat × Flg) : Prop :=
      ∃ u, eff i = .done s u ∧ Written t u e gov w e.vstart.toNat limit full r ∧ u.queue = t.queue
    (∃ u, eff (.vslideu o) = .done s u ∧ u = { t with vreg := u.vreg, hw := u.hw }
      ∧ (∀ k, e.vstart.toNat ≤ k → k < limit → u.el d k =
        if t.active gov k = true ∧ shift ≤ k then a (k - shift) else if maskZero e.vtype then 0 else t.el d k)
      ∧ ∀ k, (k < e.vstart.toNat ∨ (limit ≤ k ∧ (full && tailZero e.vtype) = false)) → u.el d k = t.el d k)
    ∧ puts (.vslided o) d (fun k => (if k + shift < vl then a (k + shift) else 0, 0))
    ∧ puts (.vgather o) d (fun k => (if b k < vlmax e.vtype t.splitV then a (b k) else 0, 0))
    ∧ puts (.viota o) d (fun k => (((List.range k).countP fun j => t.maskBit o.a.toNat j && t.active gov j) % 2 ^ n, 0))
    ∧ (let chosen := (List.range vl).filter fun k => t.maskBit o.b.toNat k
      ∃ u, eff (.vcompress o) = .done s u ∧ ∀ k, k < vl →
        u.el d k = if k < chosen.length then a (chosen.getD k 0) else if maskZero e.vtype then 0 else t.el d k)
    ∧ (∃ u, eff (.vins o) = .done s u ∧ ∀ k, k < vl →
        u.el d k = if k = shift then e.ga.toNat % 2 ^ n else if maskZero e.vtype then 0 else t.el d k)
    ∧ (let first := (List.range vl).find? fun k => t.maskBit o.a.toNat k
      ∃ u, eff (.mset o) = .done s u ∧ ∀ k, e.vstart.toNat ≤ k → k < vl → k < 8192 → (u.maskBit o.d.toNat k = true ↔
        o.e = 0 ∨ (o.e ≠ 1 ∧ o.e ≠ 0 ∧ ∀ j, first = some j → if o.e = 2 then k < j else k ≤ j)))
    ∧ (let set (k : Nat) : Prop := k < vl ∧ t.active gov k = true ∧ t.maskBit o.a.toNat k = true
      ∃ u, eff (.mffs o) = .done s u ∧ ∀ y ∈ u.queue, y.seq = e.seq →
        (∀ k, set k → (∀ j, j < k → ¬ set j) → y.result = some (BitVec.ofNat 64 k)) ∧ ((∀ k, ¬ set k) → y.result = some (-1)))
    ∧ (∃ u, eff (.vext o) = .done s u ∧ ∀ y ∈ u.queue, y.seq = e.seq → y.result = some (
        let v := if shift < vl then a shift else 0
        if o.e.getLsbD 2 then BitVec.ofNat 64 v else BitVec.ofInt 64 (toSigned n v)))
    -- reductions
    ∧ (let act := (List.range vl).filter fun k => t.active gov k
      let xs := act.map a
      let f : Fmt := if o.e = 1 then .bf16 else .f32
      let num (v : Nat) : Int := if o.e.getLsbD 2 then Int.ofNat v else toSigned n v
      let reduces (i : Instr) (init r : List Nat) (fl : Flg) : Prop := ∃ u, eff i = .done s u
        ∧ (vl = 0 → u = { t with vempty := true })
        ∧ (vl ≠ 0 → let out := if act = [] then init else r
          u.vempty = (t.vempty || act.isEmpty)
          ∧ (∀ k, k < vl → u.el d k = if k < out.length then out.getD k 0 % 2 ^ n else if maskZero e.vtype then 0 else t.el d k)
          ∧ (∀ k, vl ≤ k → k < d.cap t.splitV → u.el d k = if tailZero e.vtype then 0 else t.el d k)
          ∧ ∀ j, j < 7 → (u.flag j = true ↔ t.flag j = true ∨ (act ≠ [] ∧ fl.getLsbD j = true)))
      reduces (.vredsum o) [b 0] [(b 0 + xs.sum) % 2 ^ n] 0
      ∧ (∀ m, m ∈ b 0 :: xs → (∀ x ∈ b 0 :: xs, num x ≤ num m) → reduces (.vredmax o) [b 0] [m] 0)
      ∧ (∀ m, m ∈ b 0 :: xs → (∀ x ∈ b 0 :: xs, num m ≤ num x) → reduces (.vredmin o) [b 0] [m] 0)
      ∧ (let sum := (b 0 :: xs).foldl (fun (y : Acc) w => y.addVal (decodeF f w) false) Acc.zero
        let r := sum.extract f (Rm.ofCode e.frm.toNat) (h 0)
        reduces (.vfredsum o) [b 0] [r.bits] (r.fl ||| if (b 0 :: xs).any (isSNaNBits f) then flNV else 0))
      ∧ (∀ p ∈ [(Instr.vfredmax o, true), (.vfredmin o, false)],
        let r := xs.foldl (fun (y : Res) x => let z := fMinMax f p.2 y.bits x
          (⟨z.bits, y.fl ||| z.fl⟩ : Res)) ⟨b 0, 0⟩
        reduces p.1 [b 0] [r.bits] r.fl)
      ∧ (let r := xs.foldl (fun (y : MsPair × Flg) x => let z := msCombine y.1 ⟨x, 0x3F800000⟩
          (z.1, y.2 ||| z.2)) ((⟨b 0, b 1⟩ : MsPair), (0 : Flg))
        reduces (.vfredms o) [b 0, b 1] [r.1.m, r.1.s] r.2))
    -- conversions
    ∧ (let conv (w : Opnd) (r : Nat → Res) : Prop := puts (.vfcvt o) w fun k => ((r k).bits, (r k).fl)
      (o.b = 0 → conv d fun k => intToF (toSigned 32 (a k)) .f32 mode (h k))
      ∧ (o.b = 1 → conv d fun k => intToF (Int.ofNat (a k % 2 ^ 32)) .f32 mode (h k))
      ∧ (o.b = 2 → conv d fun k => let r := fToInt (decodeF .f32 (a k)) true 32 mode (h k)
          ⟨(r.1 % 2 ^ 32).toNat, r.2⟩)
      ∧ (o.b = 3 → conv d fun k => let r := fToInt (decodeF .f32 (a k)) false 32 mode (h k)
          ⟨(r.1 % 2 ^ 32).toNat, r.2⟩)
      ∧ (o.b = 4 → conv d fun k => fCvt .f32 .bf16 (t.el (e.wide o.a6) k) mode (h k))
      ∧ (o.b = 5 → conv (e.wide o.d6) fun k => fCvt .bf16 .f32 (a k) mode (h k))
      ∧ (o.b.toNat < 2 → let target := if o.b = 0 then Fmt.bf16 else Fmt.e4m3
        let v := if o.b = 0 then e.wide o.a6 else e.quad o.a6
        let step (x : Nat) (c : BitVec 32) (k : Nat) : Nat × BitVec 32 :=
          let z := (decodeF .f32 x).add (decodeF .f32 c.toNat) mode
          let r := roundTo z.1 target mode (h k)
          (r.bits, if z.1.isFinite && (decodeF target r.bits).isFinite then
            BitVec.ofNat 32 (roundTo (z.1.add (decodeF target r.bits).neg .rne).1 .f32 .rne 0).bits else 0)
        let carry (k : Nat) : BitVec 32 :=
          (((List.range k).drop e.vstart.toNat).filter (t.active gov ·)).foldl (fun c j => (step (t.el v j) c j).2) t.carry
        ∃ u, eff (.vfcvtEf o) = .done s u ∧ u.carry = carry limit
          ∧ ∀ k, e.vstart.toNat ≤ k → k < limit → u.el d k =
            if t.active gov k = true then (step (t.el v k) (carry k) k).1 % 2 ^ n else if maskZero e.vtype then 0 else t.el d k))

/-- R270 to R278, R85, R330, R364, R182 to R185: where every access of a vector load or store is aligned and translated, to memory, the load puts
each active element, converted and scaled, into its register, and the store performs its elements in ascending order, each byte of c4 as
one update; where an access fails, the elements below the failing one are performed and the instruction faults there. VLDFF then ends short
unless the failing one is its first. CBLD loads a codebook register; VSPILL stores header, elements and padding, and VFILL restores them or
raises Bad Spill Frame. Under determinism the stores go into the combining buffer (R405). The stores here lie outside the tiled windows, and
the V stream holds none. -/
def Obligations.VectorMemoryEffects : Prop :=
  ∀ (s : State) (t : Thread) (e : QEntry) (o : MOps) (frame : Nat → Nat), e.fresh → t.vbuf = [] →
    let vl := e.vl.toNat
    let lo := e.vstart.toNat
    let d := e.opnd o.d6
    let f := MFmt.ofCode o.f.toNat
    let w := e.who t
    let gov : Option Nat := if o.vm then some (preMask o.pre).toNat else none
    let at' (va : BitVec 64) : Nat := placeOf frame va
    let found (as : List Want) : Prop := ∀ a ∈ as, a.found s w frame
    let untiled (as : List Want) : Prop := ∀ a ∈ as, (s.partOf t).tileOf a.va = none
    let eff (i : Instr) (limit : Nat) : Eff := effect s t { e with instr := i } limit
    let read (va : BitVec 64) (n : Nat) : Nat := readSelf s t (at' va) n
    let val (a : BitVec 64) (sc : BitVec 64) (k : Nat) : Nat × Flg :=
      let raw := read a f.bytes
      let r := loadConv f d.ew (if f = .c4 then fld raw (4 * (k % 2)) 4 else raw) (cbOf t o)
        (if scaled o then some (scaleOf (read sc 1)) else none) (Rm.ofCode e.frm.toNat) (srHash e.seed k 0)
      (r.bits, r.fl)
    -- the address of an element of each form
    let unit (k : Nat) : BitVec 64 := if f = .c4 then e.ga + BitVec.ofNat 64 (k / 2) else e.ga + BitVec.ofNat 64 (k * f.bytes)
    let strided (k : Nat) : BitVec 64 := e.ga + BitVec.ofNat 64 k * e.gb
    let indexed (k : Nat) : BitVec 64 := e.ga + BitVec.ofNat 64 (t.el (e.opnd o.b6) k)
    let scale (k : Nat) : BitVec 64 := e.gc + BitVec.ofNat 64 (k / 32)
    let accesses (kind : Acc1) (addr : Nat → BitVec 64) : List Want :=
      (((List.range vl).drop lo).filter (t.active gov ·)).flatMap fun k =>
        ⟨k, addr k, f.bytes, kind, kind == .write && f.bytes < 8 && !t.det⟩ :: (if scaled o then [⟨k, scale k, 1, .read, false⟩] else [])
    let loaded (v : Thread) (stop : Nat) (addr : Nat → BitVec 64) : Prop :=
      Written t v e gov d lo stop (decide (stop = vl)) fun k => val (addr k) (scale k) k
    -- loads
    (∀ p ∈ [(Instr.vld o, unit), (.vlds o, strided), (.vldx o, indexed)], let as := accesses .read p.2
      (found as → ∀ limit, lo ≤ limit → limit ≤ vl → ∃ v u, eff p.1 limit = .done s u ∧ loaded v limit p.2 ∧ v.queue = t.queue ∧ Keeps v u e)
      ∧ ∀ k tr, FailsAt s w frame as k tr → ∃ u, eff p.1 vl = .fault s u k tr ∧ loaded u k p.2 ∧ u.queue = t.queue)
    ∧ (let as := accesses .read unit
      let ends (v u : Thread) (n : Nat) : Prop := u = { v with queue := u.queue } ∧ u.queue.map QEntry.seq = t.queue.map QEntry.seq
        ∧ ∀ q ∈ u.queue, q.seq = e.seq → q.result = some (BitVec.ofNat 64 n)
      (vl ≤ lo → ∃ u, eff (.vldff o) vl = .done s u ∧ ends t u vl)
      ∧ (lo < vl → found as → ∃ v u, eff (.vldff o) vl = .done s u ∧ loaded v vl unit ∧ ends v u vl)
      ∧ ∀ k tr, lo < vl → FailsAt s w frame as k tr →
        let first : Prop := ∃ a as', as = a :: as' ∧ a.elem = k
        (e.base = e.vstart → first → ∃ u, eff (.vldff o) vl = .fault s u k tr)
        ∧ (e.base = e.vstart → ¬ first → ∃ v u, eff (.vldff o) vl = .done s u ∧ ends v u k
          ∧ Written t v e gov d lo k true fun k => val (unit k) (scale k) k))
    ∧ (scaled o = false → let n := o.b.toNat + 1
      let g := grpOf e.vtype
      let addr (k i : Nat) : BitVec 64 := e.ga + BitVec.ofNat 64 ((k * n + i) * f.bytes)
      let segments (kind : Acc1) : List Want := (((List.range vl).drop lo).filter (t.active gov ·)).flatMap fun k =>
        (List.range n).map fun i => ⟨k, addr k i, f.bytes, kind, kind == .write && f.bytes < 8 && !t.det⟩
      let field (i : Nat) : Opnd := e.opnd (BitVec.ofNat 6 (o.d6.toNat + i * g))
      o.d6.toNat + n * g ≤ 64 → vl ≤ d.cap t.splitV →
      (found (segments .read) → ∃ u, eff (.vldseg o) vl = .done s u ∧ ∀ i, i < n → ∀ k, lo ≤ k → k < vl →
        u.el (field i) k = if t.active gov k = true then
          (loadConv f d.ew (read (addr k i) f.bytes) 0 none (Rm.ofCode e.frm.toNat) (srHash e.seed k 0)).bits % 2 ^ d.ew
        else if maskZero e.vtype then 0 else t.el (field i) k)
      ∧ (∀ k tr, FailsAt s w frame (segments .read) k tr → ∃ u, eff (.vldseg o) vl = .fault s u k tr)
      -- the store of segments, field after field
      ∧ (t.det = false → untiled (segments .write) →
        let put (m : Memory) (k : Nat) : Memory := (List.range n).foldl (fun m i => m.writeN (at' (addr k i)) f.bytes
            (storeConv f d.ew (t.el (field i) k) 0 none (Rm.ofCode e.frm.toNat) (srHash e.seed k 0)).bits) m
        let stored (stop : Nat) : Memory := (((List.range stop).drop lo).filter (t.active gov ·)).foldl put s.mem
        (found (segments .write) → ∃ u, eff (.vstseg o) vl = .done { s with mem := stored vl } u
          ∧ u = { t with fflags := u.fflags, sat := u.sat, queue := u.queue })
        ∧ ∀ k tr, FailsAt s w frame (segments .write) k tr → ∃ u, eff (.vstseg o) vl = .fault { s with mem := stored k } u k tr))
    -- stores: memory and the flags after each element
    ∧ (let conv (k : Nat) (sc : Nat) : Res := storeConv f d.ew (t.el d k) (cbOf t o) (if scaled o then some (scaleOf sc) else none)
        (Rm.ofCode e.frm.toNat) (srHash e.seed k 0)
      let step (addr : Nat → BitVec 64) (y : Memory × Flg) (k : Nat) : Memory × Flg :=
        let r := conv k (y.1.readN (at' (scale k)) 1)
        let old := y.1.readN (at' (addr k)) 1
        let byte := if k % 2 = 0 then old / 16 * 16 + r.bits % 16 else old % 16 + r.bits % 16 * 16
        (y.1.writeN (at' (addr k)) f.bytes (if f = .c4 then byte else r.bits), y.2 ||| r.fl)
      ∀ p ∈ [(Instr.vst o, unit), (.vsts o, strided), (.vstx o, indexed)],
        (f = .c4 → p.1 = .vst o ∧ (scaled o = true → ∀ j k, j < vl → k < vl → at' (scale j) ≠ at' (unit k))) →
        let as := accesses .write p.2
        untiled as →
        let run (stop : Nat) : Memory × Flg := (((List.range stop).drop lo).filter (t.active gov ·)).foldl (step p.2) (s.mem, 0)
        (t.det = false → (found as → ∃ u, eff p.1 vl = .done { s with mem := (run vl).1 } u ∧ Keeps (t.raise (run vl).2) u e)
          ∧ ∀ k tr, FailsAt s w frame as k tr →
            eff p.1 vl = .fault { s with mem := (run k).1 } (t.raise (run k).2) k tr)
        ∧ (t.det = true → scaled o = false → f ≠ .c4 → t.comb.length + vl ≤ 8192 → found as → (∀ a ∈ as, at' a.va < 2 ^ 53) →
          ∃ u, eff p.1 vl = .done s u ∧ ∀ m : Memory, (∀ q, (m.read q).toNat = readSelf s t q 1) → ∀ q, readSelf s u q 1 =
            (((((List.range vl).drop lo).filter (t.active gov ·)).foldl
              (fun m k => m.writeN (at' (p.2 k)) f.bytes (conv k 0).bits) m).read q).toNat))
    -- codebooks and spill frames
    ∧ (∀ limit, (aligned e.ga 32 = false → eff (.cbld o) limit = .fault s t 0 { code := 2, addr := e.ga, acc := 1 }
        ∧ eff (.vfill o) limit = .fault s t 0 { code := 2, addr := e.ga, acc := 1 }
        ∧ eff (.vspill o) limit = .fault s t 0 { code := 2, addr := e.ga, acc := 2 })
      ∧ (aligned e.ga 32 = true →
        (∀ l s1, locate s w e.ga .read false = (.at l, s1) →
          eff (.cbld o) limit = .done s1 { t with cb := t.cb.setIfInBounds o.d.toNat (BitVec.ofNat 256 (loadT s1 t l 32)) })
        ∧ (∀ tr s1, locate s w e.ga .read false = (.bad tr, s1) →
          eff (.cbld o) limit = .fault s1 t 0 tr ∧ eff (.vfill o) limit = .fault s1 t 0 tr)))
    ∧ (let n := d.ew / 8
      let len := (32 + vl * n + 31) / 32 * 32
      let header : List (BitVec 8) := bytesLE 8 vl ++ bytesLE 8 e.vtype.toNat ++ bytesLE 4 (rlenOf t.splitV) ++ bytesLE 1 (grpOf e.vtype)
        ++ bytesLE 1 t.splitV.toNat ++ List.replicate 10 0
      let data := header ++ ((List.range vl).map fun k => bytesLE n (t.el d k)).flatten
      let piece (i : Nat) : BitVec 64 := e.ga + BitVec.ofNat 64 (n * i)
      let as : List Want := (List.range (len / n)).map fun i => ⟨0, piece i, n, .write, false⟩
      aligned e.ga 32 = true → t.det = false → untiled as →
      let mem := (List.range (len / n)).foldl (fun m i => m.writeN (at' (piece i)) n (ofBytesLE ((data.drop (n * i)).take n))) s.mem
      (found as → eff (.vspill o) vl = .done { s with mem := mem } t)
      ∧ ∀ tr, FailsAt s w frame as 0 tr → eff (.vspill o) vl = .fault s t 0 tr)
    ∧ (let hdr := read e.ga 32
      let n (pos len : Nat) : Nat := hdr / 2 ^ pos % 2 ^ len
      let v : BitVec 6 := BitVec.ofNat 6 (n 64 64)
      let x : Opnd := ⟨o.d6, grpOf v, ewBits v⟩
      let ok : Prop := n 176 80 = 0 ∧ n 64 64 < 64 ∧ n 160 8 = grpOf v ∧ n 0 64 ≤ vlmax v t.splitV ∧ o.d6.toNat % grpOf v = 0
        ∧ o.d6.toNat + grpOf v ≤ nregsOf t.splitV
      let b := ewBits v / 8
      aligned e.ga 32 = true → locate s w e.ga .read false = (.at (.mem (at' e.ga)), s) →
      (¬ ok → eff (.vfill o) vl = .fault s t 0 { code := 13, addr := e.ga, acc := 1 })
      ∧ (ok → let as : List Want := (List.range ((32 + n 0 64 * ewBits v / 8 + 31) / 32 * 32 / b)).map fun i =>
            ⟨0, e.ga + BitVec.ofNat 64 (b * i), b, .read, false⟩
          found as → ∃ u, eff (.vfill o) vl = .done s u ∧ u = { t with vreg := u.vreg, hw := u.hw }
            ∧ (∀ k, k < n 0 64 → u.el x k = read (e.ga + BitVec.ofNat 64 (32 + b * k)) b)
            ∧ (∀ k, n 0 64 ≤ k → k < x.cap t.splitV → u.el x k = 0)
            ∧ ∀ q, q < o.d6.toNat * rlenOf t.splitV ∨ (o.d6.toNat + grpOf v) * rlenOf t.splitV ≤ q →
              Cells.get 0 u.vreg q = Cells.get 0 t.vreg q))

/-- R296 to R300, R303, R306, R307, R309, R311, R312, R373 to R375, R377 to R380: plural and vector atomic instructions whose accesses are all
aligned and translated, to memory. LDP takes at every active index of the bank set the elements of its block and combines them, index by
index, into vD, and with APEX = 1 stores the result at ADDR; with no active index the result is the identity, and VEMPTY is set. STP stores
its elements at every active index. A failing access faults at its index. VAMO makes one update for each active element, VAMOO in element
order, and vD takes the old values. The stores here lie outside the tiled windows, and the V stream holds none. The model's choices: the bytes
that held carries and lie beyond LDP's result are zero (log entry 52); STP raises the flags of its elements only where it performs an index
(log entry 53). -/
def Obligations.PluralAndAtomicEffects : Prop :=
  ∀ (s : State) (t : Thread) (e : QEntry) (o : MOps) (frame : Nat → Nat), e.fresh → t.vbuf = [] →
    let vl := e.vl.toNat
    let d := e.opnd o.d6
    let n := d.ew
    let f := MFmt.ofCode o.f.toNat
    let w := e.who t
    let gov : Option Nat := if o.vm then some (preMask o.pre).toNat else none
    let at' (va : BitVec 64) : Nat := placeOf frame va
    let found (as : List Want) : Prop := ∀ a ∈ as, a.found s w frame
    let untiled (as : List Want) : Prop := ∀ a ∈ as, (s.partOf t).tileOf a.va = none
    let eff (i : Instr) (limit : Nat) : Eff := effect s t { e with instr := i } limit
    let read (va : BitVec 64) (n : Nat) : Nat := readSelf s t (at' va) n
    let mode := Rm.ofCode e.frm.toNat
    let h (k : Nat) : Nat := srHash e.seed k 0
    -- the bank set: base, distance, count; the tree and the apex
    let base := e.image.extractLsb' 64 64
    let dist := 2 ^ (e.image.extractLsb' 16 6).toNat
    let cnt := (e.image.extractLsb' 0 12).toNat
    let tree := (e.image.extractLsb' 128 64).toNat
    let apex := tree / 16 % 4 = 1
    let addr (i k : Nat) : BitVec 64 := base + BitVec.ofNat 64 (i * dist) + e.gb + BitVec.ofNat 64 (k * f.bytes)
    let top (k : Nat) : BitVec 64 := e.image.extractLsb' 192 64 + BitVec.ofNat 64 (k * f.bytes)
    let active : List Nat := (List.range cnt).filter (t.active gov ·)
    let plural (is : List Nat) (kind : Acc1) : List Want :=
      is.flatMap fun i => (List.range vl).map fun k => ⟨i, addr i k, f.bytes, kind, false⟩
    let apexes : List Want := if apex then (List.range vl).map fun k => ⟨0, top k, f.bytes, .write, false⟩ else []
    -- plural loads and stores
    (e.vstart = 0 → 0 < cnt → vl ≤ d.cap t.splitV →
      let v (k i : Nat) : Nat := read (addr i k) f.bytes
      let stored (out : Nat → Nat) : Memory :=
        if apex then (List.range vl).foldl (fun m k => m.writeN (at' (top k)) f.bytes (out k)) s.mem else s.mem
      let gives (i : Instr) (is : List Nat) (out : Nat → Nat) (fl : Flg) (zeroed : Nat) : Prop :=
        found apexes → untiled apexes → (apex → t.det = false) → found (plural is .read) →
        ∃ u, eff i cnt = .done { s with mem := stored out } u
          ∧ u = { t with vreg := u.vreg, hw := u.hw, fflags := u.fflags, sat := u.sat, vempty := t.vempty || active.isEmpty }
          ∧ (∀ k, k < vl → u.el d k = out k % 2 ^ n)
          ∧ (∀ k, vl ≤ k → k < d.cap t.splitV → u.el d k = if tailZero e.vtype ∨ (k + 1) * (n / 8) ≤ zeroed then 0 else t.el d k)
          ∧ ∀ j, j < 7 → (u.flag j = true ↔ t.flag j = true ∨ fl.getLsbD j = true)
      let all (k : Nat) : List Nat := active.map (v k)
      let num (x : Nat) : Int := if o.f.toNat < 4 then toSigned n x else Int.ofNat x
      let least : Nat := if o.f.toNat < 4 then 2 ^ (n - 1) else 0
      let most : Nat := if o.f.toNat < 4 then 2 ^ (n - 1) - 1 else 2 ^ n - 1
      (o.f.toNat < 8 → f.bytes * 8 = n →
        gives (.ldpSum o) active (fun k => (all k).sum) 0 0
        ∧ gives (.ldpAnd o) active (fun k => (all k).foldl (· &&& ·) (2 ^ n - 1)) 0 0
        ∧ gives (.ldpOr o) active (fun k => (all k).foldl (· ||| ·) 0) 0 0
        ∧ gives (.ldpXor o) active (fun k => (all k).foldl (· ^^^ ·) 0) 0 0
        ∧ gives (.ldpMax o) active (fun k => (all k).foldl (fun x y => if num x < num y then y else x) least) 0 0
        ∧ gives (.ldpMin o) active (fun k => (all k).foldl (fun x y => if num y < num x then y else x) most) 0 0)
      ∧ (∀ fm, f = .fp fm →
        let ors (l : List Flg) : Flg := l.foldl (· ||| ·) 0
        let sum (k : Nat) : Res := ((all k).foldl (fun (x : Acc) y => x.addVal (decodeF fm y) false) Acc.zero).extract fm mode (h k)
        let extreme (isMax : Bool) (k : Nat) : Res := (all k).foldl (fun (x : Res) y => let z := fMinMax fm isMax x.bits y
          (⟨z.bits, x.fl ||| z.fl⟩ : Res)) ⟨if isMax then fm.signBit + fm.infBits else fm.infBits, 0⟩
        gives (.ldpSum o) active (fun k => (sum k).bits)
          (ors ((List.range vl).map fun k => (sum k).fl ||| if (all k).any (isSNaNBits fm) then flNV else 0)) (96 * vl)
        ∧ gives (.ldpMax o) active (fun k => (extreme true k).bits) (ors ((List.range vl).map fun k => (extreme true k).fl)) 0
        ∧ gives (.ldpMin o) active (fun k => (extreme false k).bits) (ors ((List.range vl).map fun k => (extreme false k).fl)) 0
        ∧ (vl % 2 = 0 → let levels := treeLevels tree
          -- the pending pairs of the tree after each index; an inactive one counts as the identity
          let step (k : Nat) (y : List MsPair × Flg) (i : Nat) : List MsPair × Flg :=
            let p : MsPair := if t.active gov i then ⟨v (2 * k) i, v (2 * k + 1) i⟩ else MsPair.unit
            match y.1 with
            | q :: r =>
              let c := msCombine q p
              let x := foldLevels i cnt levels.dropLast (c.1 :: r)
              (x.1, y.2 ||| c.2 ||| x.2)
            | [] => y
          let pair (k : Nat) : List MsPair × Flg := (List.range cnt).foldl (step k) (List.replicate levels.length MsPair.unit, 0)
          let out (k : Nat) : Nat := let p := (pair (k / 2)).1.getLastD MsPair.unit
            if k % 2 = 0 then p.m else p.s
          gives (.ldpMaxsum o) active out (ors ((List.range (vl / 2)).map fun k => (pair k).2)) (96 * (vl / 2))))
      ∧ gives (.ldpFirst o) (active.take 1) (fun k => (active.head?.map (v k)).getD 0) 0 0
      ∧ (∀ i tr, found apexes → FailsAt s w frame (plural active .read) i tr →
        ∀ x ∈ [Instr.ldpSum o, .ldpMax o, .ldpMin o, .ldpAnd o, .ldpOr o, .ldpXor o],
          ∃ u, eff x cnt = .fault s u i tr ∧ u = { t with vreg := u.vreg, hw := u.hw, fflags := u.fflags, sat := u.sat })
      ∧ (∀ tr, FailsAt s w frame apexes 0 tr →
        ∀ x ∈ [Instr.ldpSum o, .ldpMax o, .ldpMin o, .ldpMaxsum o, .ldpAnd o, .ldpOr o, .ldpXor o, .ldpFirst o], eff x cnt = .fault s t 0 tr))
    ∧ (let is := active.filter fun i => e.vstart.toNat ≤ i
      let conv (k : Nat) : Res := storeConv f n (t.el d k) 0 none mode (h k)
      let put (m : Memory) (i : Nat) : Memory := (List.range vl).foldl (fun m k => m.writeN (at' (addr i k)) f.bytes (conv k).bits) m
      let fl (l : List Nat) : Flg := if l = [] then 0 else (List.range vl).foldl (fun x k => x ||| (conv k).fl) 0
      (cnt ≤ e.vstart.toNat → ∀ x ∈ [Instr.stp o, .ldpSum o, .ldpMax o, .ldpMin o, .ldpMaxsum o, .ldpAnd o, .ldpOr o, .ldpXor o, .ldpFirst o],
        eff x cnt = .done s t)
      ∧ (e.vstart.toNat < cnt → t.det = false → untiled (plural is .write) →
        (found (plural is .write) → ∃ u, eff (.stp o) cnt = .done { s with mem := is.foldl put s.mem } u ∧ Keeps (t.raise (fl is)) u e)
        ∧ ∀ i tr, FailsAt s w frame (plural is .write) i tr → let below := is.filter (· < i)
          eff (.stp o) cnt = .fault { s with mem := below.foldl put s.mem } (t.raise (fl below)) i tr))
    -- vector atomics
    ∧ (let size := if o.f = 3 ∨ o.f = 7 then 8 else 4
      let where' (k : Nat) : BitVec 64 := e.ga + BitVec.ofNat 64 (t.el (e.opnd o.b6) k)
      let ks := ((List.range vl).drop e.vstart.toNat).filter (t.active gov ·)
      let as : List Want := ks.map fun k => ⟨k, where' k, size, .atomic, false⟩
      let fresh (k : Nat) : Nat := t.el (e.opnd (BitVec.ofNat 6 (o.d6.toNat + grpOf e.vtype))) k
      let num (x : Nat) : Int := if o.f.toNat < 4 then toSigned (8 * size) x else Int.ofNat (x % 2 ^ (8 * size))
      let int (g : Nat → Nat → Nat) (k old : Nat) : Res := ⟨g old (t.el d k), 0⟩
      let run (new : (k old : Nat) → Res) (l : List Nat) : Memory × (Nat → Nat × Flg) :=
        l.foldl (fun y k => let old := y.1.readN (at' (where' k)) size
          let r := new k old
          (y.1.writeN (at' (where' k)) size r.bits, fun j => if j = k then (old, r.fl) else y.2 j)) (s.mem, fun _ => (0, 0))
      let does (vamo vamoo : Instr) (new : (k old : Nat) → Res) : Prop := ∀ p ∈ [(vamo, false), (vamoo, true)],
        (found as → ∃ (l : List Nat) (v u : Thread), l.Perm ks ∧ (p.2 = true → l = ks)
          ∧ eff p.1 vl = .done { s with mem := (run new l).1 } u ∧ Written t v e gov d e.vstart.toNat vl true (run new l).2 ∧ v.queue = t.queue
          ∧ Keeps v u e)
        ∧ ∀ k tr, FailsAt s w frame as k tr → ∃ (l : List Nat) (u : Thread), l.Perm (ks.filter (· < k)) ∧ (p.2 = true → l = ks.filter (· < k))
          ∧ eff p.1 vl = .fault { s with mem := (run new l).1 } u k tr
          ∧ Written t u e gov d e.vstart.toNat k false (run new l).2 ∧ u.queue = t.queue
      untiled as →
      (o.f ≠ 9 → does (.vamoAdd o) (.vamooAdd o) (int (· + ·))
        ∧ does (.vamoMin o) (.vamooMin o) (int fun old x => if num x < num old then x else old)
        ∧ does (.vamoMax o) (.vamooMax o) (int fun old x => if num old < num x then x else old))
      ∧ (o.f = 9 → does (.vamoAdd o) (.vamooAdd o) (fun k old => fAdd .f32 old (t.el d k) mode (h k))
        ∧ does (.vamoMin o) (.vamooMin o) (fun k old => fMinMax .f32 false old (t.el d k))
        ∧ does (.vamoMax o) (.vamooMax o) (fun k old => fMinMax .f32 true old (t.el d k)))
      ∧ does (.vamoAnd o) (.vamooAnd o) (int (· &&& ·)) ∧ does (.vamoOr o) (.vamooOr o) (int (· ||| ·))
      ∧ does (.vamoXor o) (.vamooXor o) (int (· ^^^ ·)) ∧ does (.vamoSwap o) (.vamooSwap o) (int fun _ x => x)
      ∧ does (.vamoCas o) (.vamooCas o) (fun k old => ⟨if old = t.el d k then fresh k else old, 0⟩))

/-- R223, R231, R232, R234 to R241, R243 to R245, R107, R110: the lattice. LDWS replaces the shadow plane of its handle; MSTREAM adds to each
accumulator of the rows it streams the exact products of its row of vA with a column of the active plane, MOPA and MOPS those of their
vectors; AXTR and AXTC read a row or a column, rounded, and .clr clears what was read, or fault where an active one is poisoned; ASAVE,
ALOAD and AADDI store, load and add images; TROW, TCOL, TLD and TST move between vectors, memory and a tile register. The model's choices:
whole rows of 32 elements (log entry 23), and a misaligned stride reported at gA + gB (log entry 78). -/
def Obligations.LatticeEffects : Prop :=
  ∀ (s : State) (t : Thread) (e : QEntry) (o : XOps) (frame : Nat → Nat) (limit : Nat), e.fresh → t.vbuf = [] →
    e.vstart.toNat ≤ limit → limit ≤ e.vl.toNat →
    let vl := e.vl.toNat
    let lo := e.vstart.toNat
    let d := e.opnd o.d6
    let a (k : Nat) : Nat := t.el (e.opnd o.a6) k
    let b (k : Nat) : Nat := t.el (e.opnd o.b6) k
    let gov := tileGov o.pre
    let w := e.who t
    let eff (i : Instr) : Eff := effect s t { e with instr := i } limit
    let found (as : List Want) : Prop := ∀ a ∈ as, a.found s w frame
    let untiled (as : List Want) : Prop := ∀ a ∈ as, (s.partOf t).tileOf a.va = none
    let read (va : BitVec 64) (n : Nat) : Nat := readSelf s t (placeOf frame va) n
    let fx : Fmt := if o.q.getLsbD 0 then .f32 else .bf16
    let shadow (v : BoundTile) : Cells (BitVec 32) × BitVec 2 := if v.active then (v.plane0, v.fmt0) else (v.plane1, v.fmt1)
    let front (v : BoundTile) : Cells (BitVec 32) × BitVec 2 := if v.active then (v.plane1, v.fmt1) else (v.plane0, v.fmt0)
    (∀ x : BoundTile, t.hnd o.d.toNat = some x →
      let becomes (i : Instr) (v : BoundTile) (fl : Flg) : Prop := eff i = .done s ((t.setHnd o.d.toNat (some v)).raise fl)
      -- weights
      (∃ v, becomes (.ldws o) v 0 ∧ v.tile = x.tile ∧ v.acc = x.acc ∧ v.active = x.active ∧ front v = front x
        ∧ (∀ q, (o.q = 0 ∨ o.q = 3) ∧ q = 1 ∨ (o.q = 1 ∨ o.q = 2 ∨ o.q = 4) ∧ q = 0 → (shadow v).2 = q)
        ∧ ∀ i, i < 1024 → Cells.get 0 (shadow v).1 i =
          if o.q = 0 then t.tr o.a.toNat (i / 32) (i % 32)
          else if o.q = 1 then t.tr o.a.toNat (i / 32) (i % 32) &&& 0xFFFF
          else if o.q = 2 ∨ o.q = 3 then if i < vl then BitVec.ofNat 32 (a i) else 0
          else if i < 2 * vl then
            BitVec.ofNat 32 (cbEntry (t.cb.toList.getD (o.b.toNat % 4) 0) (a (i / 2) / 2 ^ (4 * (i % 2)) % 16)) else 0)
      -- products: rows are those from VSTART to the limit that the mask admits
      ∧ (let rows := ((List.range (limit / 32)).drop (lo / 32)).filter (t.active gov ·)
        let row0 := e.gb.toNat
        let fw : Fmt := if (front x).2 = 1 then .f32 else .bf16
        let weight (k j : Nat) : Nat := (Cells.get 0 (front x).1 (32 * k + j)).toNat
        let sum (y : Acc) (p : Val × Bool) : Acc := y.addVal p.1 p.2
        let same (v : BoundTile) : Prop := v = { x with acc := v.acc }
        (row0 + limit / 32 ≤ 32 → ∃ v fl, becomes (.mstream o) v fl ∧ same v
          ∧ (∀ i j, i < 32 → j < 32 → v.at i j = if row0 ≤ i ∧ i - row0 ∈ rows then
              (List.range 32).foldl (fun y k => sum y ((decodeF fx (a (32 * (i - row0) + k))).mul (decodeF fw (weight k j)))) (x.at i j)
            else x.at i j)
          ∧ (fl = flNV ∨ fl = 0) ∧ (fl = flNV ↔ ∃ i ∈ rows, ∃ k, k < 32 ∧ ∃ j, j < 32 ∧
              (isSNaNBits fx (a (32 * i + k)) = true ∨ isSNaNBits fw (weight k j) = true)))
        ∧ ∀ p ∈ [(Instr.mopa o, false), (.mops o, true)], ∃ v fl, becomes p.1 v fl ∧ same v
          ∧ (∀ i j, i < 32 → j < 32 → v.at i j = rows.foldl (fun y k =>
              let z := (decodeF fx (a (32 * k + i))).mul (decodeF fx (b (32 * k + j)))
              sum y (if p.2 then z.1.neg else z.1, z.2)) (x.at i j))
          ∧ (fl = flNV ∨ fl = 0) ∧ (fl = flNV ↔ ∃ k ∈ rows, ∃ i, i < 32 ∧
              (isSNaNBits fx (a (32 * k + i)) = true ∨ isSNaNBits fx (b (32 * k + i)) = true)))
      -- images
      ∧ (let piece (k i : Nat) : BitVec 64 := e.ga + BitVec.ofNat 64 (96 * k + 8 * i)
        let as (kind : Acc1) : List Want := (List.range 12288).map fun i => ⟨0, e.ga + BitVec.ofNat 64 (8 * i), 8, kind, false⟩
        let image (k : Nat) : Acc := Acc.ofImage ((List.range 12).map fun i => bytesLE 8 (read (piece k i) 8)).flatten
        (aligned e.ga 32 = false → eff (.asave o) = .fault s t 0 { code := 2, addr := e.ga, acc := 2 }
          ∧ ∀ i ∈ [Instr.aload o, .aaddi o], eff i = .fault s t 0 { code := 2, addr := e.ga, acc := 1 })
        ∧ (aligned e.ga 32 = true →
          (let mem := (List.range 1024).foldl (fun m k => (List.range 12).foldl (fun m i => m.writeN (placeOf frame (piece k i)) 8
              (ofBytesLE (((x.at (k / 32) (k % 32)).image.drop (8 * i)).take 8))) m) s.mem
          found (as .write) → untiled (as .write) → t.det = false → eff (.asave o) = .done { s with mem := mem } t)
          ∧ (∀ tr, FailsAt s w frame (as .write) 0 tr → eff (.asave o) = .fault s t 0 tr)
          ∧ (found (as .read) → ∀ p ∈ [(Instr.aload o, false), (.aaddi o, true)], ∃ v,
            eff p.1 = .done s (t.setHnd o.d.toNat (some v)) ∧ v = { x with acc := v.acc }
            ∧ ∀ i j, i < 32 → j < 32 → v.at i j = if p.2 then (x.at i j).combine (image (32 * i + j)) else image (32 * i + j))
          ∧ ∀ tr, FailsAt s w frame (as .read) 0 tr → ∀ i ∈ [Instr.aload o, .aaddi o], eff i = .fault s t 0 tr)))
    -- extraction
    ∧ (∀ x : BoundTile, t.hnd o.a.toNat = some x → ∀ p ∈ [(Instr.axtr o, false), (.axtc o, true)],
      let line := e.gb.toNat
      let i (k : Nat) : Nat := if p.2 then k else line
      let j (k : Nat) : Nat := if p.2 then line else k
      let active (k : Nat) : Prop := k < vl ∧ t.active gov k = true
      let rm := tileRm o.pre
      let mode := if rm = 7 then Rm.ofCode e.frm.toNat else Rm.ofCode rm.toNat
      let r (k : Nat) : Nat × Flg :=
        let z := (x.at (i k) (j k)).extract fx mode (srHash e.seed 0 (0x10000000 + 32 * i k + j k))
        (z.bits, z.fl)
      ((∃ k, active k ∧ (x.at (i k) (j k)).poison = true) → eff p.1 = .fault s t 0 { code := 12 })
      ∧ ((∀ k, active k → (x.at (i k) (j k)).poison = false) → ∃ (u : Thread) (v : BoundTile),
        eff p.1 = .done s (u.setHnd o.a.toNat (some v)) ∧ Written t u e gov d lo vl true r ∧ v = { x with acc := v.acc }
        ∧ (line < 32 → vl ≤ 32 → ∀ y z, y < 32 → z < 32 →
          ((o.q.getLsbD 1 = true ∧ ∃ k, active k ∧ y = i k ∧ z = j k) → v.at y z = Acc.zero)
          ∧ (¬ (o.q.getLsbD 1 = true ∧ ∃ k, active k ∧ y = i k ∧ z = j k) → v.at y z = x.at y z))))
    -- tile registers
    ∧ (let row0 := e.gb.toNat
      (32 * row0 + limit ≤ 1024 → ∃ u, eff (.trow o) = .done s u ∧ u = { t with treg := u.treg } ∧ ∀ r i j, i < 32 → j < 32 →
        u.tr r i j = if r = o.d.toNat ∧ row0 ≤ i ∧ lo ≤ 32 * (i - row0) + j ∧ 32 * (i - row0) + j < limit
          ∧ t.active gov (32 * (i - row0) + j) = true then BitVec.ofNat 32 (a (32 * (i - row0) + j)) else t.tr r i j)
      ∧ ∃ u, eff (.tcol o) = .done s u
        ∧ Written t u e gov d lo limit (decide (limit = vl)) fun k => ((t.tr o.a.toNat (k % 32) (row0 + k / 32)).toNat % 2 ^ d.ew, 0))
    ∧ (let n := if o.q.getLsbD 0 then 2 else 4
      let addr (k : Nat) : BitVec 64 := e.ga + BitVec.ofNat 64 (k / 32) * e.gb + BitVec.ofNat 64 (n * (k % 32))
      let as (kind : Acc1) : List Want := (List.range 1024).map fun k => ⟨0, addr k, n, kind, false⟩
      (aligned e.ga n = true → aligned e.gb n = true →
        (found (as .read) → ∃ u, eff (.tld o) = .done s u ∧ u = { t with treg := u.treg } ∧ ∀ r i j, i < 32 → j < 32 →
          u.tr r i j = if r = o.d.toNat then BitVec.ofNat 32 (read (addr (32 * i + j)) n) else t.tr r i j)
        ∧ (let mem := (List.range 1024).foldl
            (fun m k => m.writeN (placeOf frame (addr k)) n (t.tr o.d.toNat (k / 32) (k % 32)).toNat) s.mem
          found (as .write) → untiled (as .write) → t.det = false → eff (.tst o) = .done { s with mem := mem } t)
        ∧ (∀ tr, FailsAt s w frame (as .read) 0 tr → eff (.tld o) = .fault s t 0 tr)
        ∧ ∀ tr, FailsAt s w frame (as .write) 0 tr → eff (.tst o) = .fault s t 0 tr)
      ∧ ∀ p ∈ [(Instr.tld o, 1), (.tst o, 2)],
        (aligned e.ga n = false → eff p.1 = .fault s t 0 { code := 2, addr := e.ga, acc := p.2 })
        ∧ (aligned e.ga n = true → aligned e.gb n = false → eff p.1 = .fault s t 0 { code := 2, addr := e.ga + e.gb, acc := p.2 }))

/-- R219, R221, R222: VREPLAY pops its token and stands at the first entry of the chain buffer, with as many repetitions as gA[15:0] gives, or is
complete where they are none. Then each entry is performed as it was recorded, from VSTART on; after the last one the next repetition
begins, and after the last repetition VREPLAY is complete. An entry that faults faults the VREPLAY, which stands at it. Before a VREPLAY that
pushes a token, the stores that the V stream holds are performed. The model's choices: the trap waits 16 thread cycles while its thread can
issue (log entry 83), and the checks of the recorded entries' pushes are not made again (log entry 96). -/
def Obligations.ChainReplays : Prop :=
  ∀ (s : State) (t : Thread) (before es : List QEntry) (e : QEntry) (o : VOps), s.thread? t.slot = some t → t.vectorRuns = true →
    t.queue = before ++ e :: es → (t.queue.map QEntry.seq).Nodup → e.instr = .vreplay o → (∀ x ∈ t.queue, x.live = false ∧ x.fault = none) →
    (∀ x ∈ before, x.started = true ∧ ∀ o, x.instr ≠ .vreplay o) → readyTokp s t [] t.queue = none → e.blks = [] → e.qs = [] → e.pages = [] →
    e.strips = [] → e.stopAt = none → e.late = false →
    let q := qForm e.instr
    let entry (u : Thread) (y : QEntry) : Prop := ∃ x ∈ u.queue, x.seq = e.seq ∧ x = y
    (e.started = false → t.replay = none → mayStart s t before e = true → e.spent q = false → tokensReady t e q = true →
      let m := if q.pushes.isSome then performV s.mem t.vbuf else s.mem
      ∃ u, exec (.entryStart t.slot) s = .next ({ s with mem := m }.setThread u) ∧ u.vreg = t.vreg ∧ u.chain = t.chain
        ∧ u.vbuf = (if q.pushes.isSome then [] else t.vbuf)
        ∧ (e.ga.setWidth 16 = (0 : BitVec 16) →
          u.replay = none ∧ entry u { e with started := true, popped := true, done := true, repPos := [] })
        ∧ (e.ga.setWidth 16 ≠ (0 : BitVec 16) →
          u.replay = some (e.ga.setWidth 16, 0) ∧ entry u { e with started := true, popped := true, repPos := [] }))
    ∧ ∀ (rem : BitVec 16) (pos : BitVec 4) (c : QEntry), t.replay = some (rem, pos) → e.started = true → e.done = false →
      t.chain[pos.toNat]? = some c →
      let c0 : QEntry := { c with seq := e.seq, pc := e.pc, vstart := e.vstart, popped := e.subPopped, base := e.base }
      let c1 : QEntry := { c0.closed with started := false, done := false, blks := [], qs := [], posD := 0, posA := 0, posB := 0 }
      let q1 := qForm c.instr
      unplaced s t = false → convoyOk s t before q1 = true → c1.spent q1 = false → tokensReady t c1 q1 = true →
      roomFor t c1 (c1.info t.splitV) = [] → isLat q1 = false →
      let t1 := if e.subPopped then t else match q1.waits with
        | some k => t.popTok k
        | none => t
      let c2 := { c1 with popped := true, base := e.vstart }
      let v1 := settleV s t1 q1
      let run := if emptyRun c2 then Eff.done v1.1 v1.2 else effect v1.1 v1.2 c2 (c2.span q1)
      let at' (f : Nat) : BitVec 14 := if q1.whole then 0 else BitVec.ofNat 14 f
      (∀ s2 v, run = .done s2 v → (v.queue.map QEntry.seq).Nodup → (∃ x ∈ v.queue, x.seq = e.seq ∧ x.instr = e.instr ∧ x.done = false) →
        v.replay = t.replay → v.chain = t.chain →
        ∃ u, exec (.entryStart t.slot) s = .next (s2.setThread u) ∧ u.vreg = v.vreg ∧ u.m = v.m ∧ u.fflags = v.fflags ∧ u.cb = v.cb
          ∧ u.replay = (if pos.toNat + 1 < t.chain.length then some (rem, pos + 1) else if 1 < rem.toNat then some (rem - 1, 0) else none)
          ∧ ∃ x ∈ u.queue, x.seq = e.seq ∧ x.instr = e.instr ∧ x.vstart = 0 ∧ x.subPopped = false
            ∧ (x.done = true ↔ ¬ (pos.toNat + 1 < t.chain.length ∨ 1 < rem.toNat)))
      ∧ ∀ s2 v f tr, run = .fault s2 v f tr → v.queue = t.queue →
        ∃ u, exec (.entryStart t.slot) s = .next (s2.setThread u) ∧ u.replay = v.replay
          ∧ entry u { e with vstart := at' f, subPopped := true, fault := some tr, skip := tr.code == 18, trapFrom := s.cyc + 16 }

/-- R206, R229, R230, R233, R228, R181: effects that change one thing of the thread. MAND, MOR, MXOR and MNOT act on the mask bits from VSTART
to VL; MPOPC counts; AFREE gives up the tile of its handle, ACLR clears it, SWPL changes its planes over; AALLOC takes the lowest free tile
of the facet, cleared, with result 0, or gives 1; VRECONF zeroes all vector storage and takes the new split. -/
def Obligations.MaskAndHandleEffects : Prop :=
  ∀ (s : State) (t : Thread) (e : QEntry) (o : VOps) (x : XOps) (n : Nat), o.d.toNat < 8 → e.vl.toNat ≤ 8192 →
    let put (i : Instr) (r : Nat → Bool) : Prop :=
      ∃ u, effect s t { e with instr := i } n = .done s u ∧ u = { t with m := u.m }
        ∧ (∀ k, k < e.vl.toNat → u.maskBit o.d.toNat k = if e.vstart.toNat ≤ k then r k else t.maskBit o.d.toNat k)
        ∧ (∀ k, e.vl.toNat ≤ k → k < 8192 → u.maskBit o.d.toNat k = (!tailZero e.vtype && t.maskBit o.d.toNat k))
        ∧ ∀ j, j ≠ o.d.toNat → u.mask j = t.mask j
    let a (k : Nat) : Bool := t.maskBit o.a.toNat k
    let b (k : Nat) : Bool := t.maskBit o.b.toNat k
    (∀ p ∈ [(Instr.mand o, fun k => a k && b k), (.mor o, fun k => a k || b k), (.mxor o, fun k => a k != b k), (.mnot o, fun k => !a k)],
      put p.1 p.2)
    ∧ (∃ u, effect s t { e with instr := .mpopc o } n = .done s u
      ∧ ∀ y ∈ u.queue, y.seq = e.seq → y.result = some (BitVec.ofNat 64 ((List.range e.vl.toNat).countP fun k =>
          a k && t.active (if o.vm then some (preMask o.pre).toNat else none) k)))
    ∧ (∃ u, effect s t { e with instr := .vreconf o } n = .done s u ∧ u.splitV = o.e.setWidth 2
      ∧ (∀ (w : Opnd) k, u.el w k = 0) ∧ u = { t with vreg := u.vreg, hw := u.hw, splitV := u.splitV })
    ∧ effect s t { e with instr := .afree x } n = .done s (t.setHnd x.d.toNat none)
    ∧ (∀ w, t.hnd x.d.toNat = some w →
      (∃ v : BoundTile, effect s t { e with instr := .aclr x } n = .done s (t.setHnd x.d.toNat (some v)) ∧ v.tile = w.tile
        ∧ (∀ i j, v.at i j = Acc.zero) ∧ v.activePlane = w.activePlane)
      ∧ ∃ v : BoundTile, effect s t { e with instr := .swpl x } n = .done s (t.setHnd x.d.toNat (some v)) ∧ v.tile = w.tile
        ∧ v.acc = w.acc ∧ v.active = !w.active ∧ v.plane0 = w.plane0 ∧ v.plane1 = w.plane1)
    ∧ ((s.facet t.facet).waiters = [] → ∀ k ks, freeTiles s t.facet = k :: ks →
      ∃ u, effect s t { e with instr := .aalloc x } n = .done s u ∧ u.hnd x.a.toNat = some { tile := k }
        ∧ ∀ y ∈ u.queue, y.seq = e.seq → y.result = some 0)
    ∧ (freeTiles s t.facet = [] → ∃ u, effect s t { e with instr := .aalloc x } n = .done s u ∧ u.h0 = t.h0 ∧ u.h1 = t.h1
        ∧ ∀ y ∈ u.queue, y.seq = e.seq → y.result = some 1)

/-- R258, R250, R259, R290, R291: the A stream reads a strip ahead of its entry, whose token is popped first: an element is what stands at its
position's address, or zero from the stream's length on, and nothing else changes; and it performs the oldest store that it owes, and no
other byte of memory changes. With the last store of an entry its tokens are pushed. -/
def Obligations.StreamAccesses : Prop :=
  ∀ (s : State) (t : Thread), s.thread? t.slot = some t →
    (∀ (n : Nat) (e : QEntry) (b : StreamBlk) (v : VOp) (p : Nat) (frame : Nat → Nat), t.queue[n]? = some e → e.started = false → e.fresh →
      e.strips = [] → e.vl.toNat ≤ 8192 → t.vectorRuns = true → (t.queue.take (n + 1)).any holdsStrips = false →
      (e.popped = true ∨ (qForm e.instr).waits = none) →
      streamSrcs e (e.info t.splitV) = [(b, v, p)] → stripFree t (t.queue.take n) b = true →
      (∀ k, e.vstart.toNat ≤ k → k < e.vl.toNat → p + k < b.len →
        (⟨k, b.desc.addr (p + k), b.fmt.bytes, .read, false⟩ : Want).placed s (e.who t) frame) →
      ∃ ps, exec (.streamStripRead t.slot n) s = .next (s.setThread (t.upd e.seq fun _ => { e with strips := [⟨b.reg, e.vstart.toNat,
        (List.range (e.vl.toNat - e.vstart.toNat)).map fun i =>
          let k := e.vstart.toNat + i
          if p + k < b.len then readSelf s t (placeOf frame (b.desc.addr (p + k))) b.fmt.bytes else 0, none, ps⟩] })))
    ∧ ∀ (o : OwedStores) (os : List OwedStores) (a : Nat) (bs : List (BitVec 8)) (xs : List (Nat × List (BitVec 8))),
      t.owed = o :: os → o.stores = (a, bs) :: xs →
      ∃ s' u, exec (.writeStreamStore t.slot) s = .next s' ∧ s' = { s.setThread u with mem := s'.mem }
        ∧ (xs ≠ [] → u = { t with owed := { o with stores := xs } :: os })
        ∧ (xs = [] → (∀ p ∈ os.head?, p.stores ≠ []) → u = o.toks.foldl Thread.putTok { t with owed := os })
        ∧ (∀ k, k < bs.length → s'.mem.read (a + k) = bs.getD k 0)
        ∧ ∀ q, q < a ∨ a + bs.length ≤ q → s'.mem.read q = s.mem.read q

/-! ### Events -/

/-- R443, R382, R387, R370, R155, R460, R161, R162, R286, R321, R266, R349, R351, R163, R264: the event that ends a wait executes the
blocked instruction of its slot from its start, which completes where what it waits for is there, whoever's turn it is. -/
def Obligations.WakesCompleteWaits : Prop :=
  ∀ (s s1 : State) (t : Thread) (i : Instr) (p : Pre) (sc : BitVec 3) (sb : BitVec 4) (b a d : Reg) (l : Loc) (v : BitVec 64),
    let w : State := { s with cur := t.slot }
    let after (ev : Instr) (s2 : State) (u : Thread) : Prop := exec ev s = .next { retired s2 u i with cur := s.cur }
    t.run = .blocked i →
    (Issues w t [] [] →
      (i = .fence sc → t.queue = [] → t.owed = [] → t.det = false → after (.fenceComplete t.slot) w (t.issued []))
      ∧ (i = .isync → after (.isyncComplete t.slot) { w with code := [] } (t.issued []))
      ∧ (i = .stbar p sb → stbarReady w t sb.toNat = true → after (.stbarComplete t.slot) w (t.issued [])))
    ∧ (t.sup = true →
      (Issues w t [a, b] [] → i = .tlbinv b a → (t.src b).toNat < 2 ^ 16 →
        translationsDone w (fun v => v.hit (t.src a) ((t.src b).setWidth 16)) = true →
        after (.tlbinvComplete t.slot) (dropStrips (dropPage w (t.src a) ((t.src b).setWidth 16))) (t.issued [a, b]).dropStrips)
      ∧ (Issues w t [a] [] → i = .tlbinvA a → fld (t.src a).toNat 16 47 = 0 →
        translationsDone w (fun v => v.hitAll (t.src a)) = true →
        after (.tlbinvComplete t.slot) (dropStrips (dropSpace w (t.src a))) (t.issued [a]).dropStrips))
    ∧ (t.arrived = true → takeLeave (checkEpisode w t.part ((t.src a).setWidth 32)) t ((t.src a).setWidth 32) = some (v, s1) →
      (Issues w t [a] [d] →
        (i = .barg a d → after (.staggeredRelease t.slot) s1 ((t.issued [a]).result d 0))
        ∧ (i = .toksw a d → ∀ ev ∈ [Instr.staggeredRelease t.slot, .tokswMinResume t.slot], after ev s1 ((t.issued [a]).result d v)))
      ∧ (Issues w t [a, b] [d] → i = .tokswMin b a d → (t.src b).toNat < 2 ^ 16 →
        ∀ ev ∈ [Instr.staggeredRelease t.slot, .tokswMinResume t.slot], after ev s1 ((t.issued [a, b]).result d v)))
    ∧ (aligned (t.src a) 8 = true → locate w (t.who w) (t.src a) .read false = (.at l, s1) →
      (Issues w t [a, b] [d] → i = .waitw sc b a d → BitVec.ofNat 64 (loadT s1 t l 8) ≠ t.src b →
        after (.waitwWake t.slot) s1 ((t.issued [a, b]).result d (BitVec.ofNat 64 (loadT s1 t l 8))))
      ∧ (Issues w t [a] [d] → i = .waitc p a d → loadT s1 t l 8 % 256 ≠ 0 →
        after (.waitcWake t.slot) s1 ((t.issued [a]).result d (BitVec.ofNat 64 (loadT s1 t l 8)))))
    ∧ (Issues w t [a] [d] →
      (i = .waitt a d → (t.src a).toNat ≤ s.time.toNat → after (.waittWake t.slot) w ((t.issued [a]).result d s.time))
      ∧ (i = .vpublWait a d → t.queue = [] → t.det = false →
        ∀ base x regs, s.vtab = some base → publishNow w t (t.src a).toNat none true = .step x regs →
        after (.vpublWaitResume t.slot)
          { w with mem := (regs.foldl (fun m r => publishRegion m base.toNat r x) s.mem).writeN base.toNat 2 x.toNat }
          ((t.issued [a]).result d (x.setWidth 64))))
    ∧ (Issues w t [] [d] → i = .chwait p d → (∀ e ∈ t.queue, owesRuns t e = false) → t.chOut = 0 →
      after (.chwaitWake t.slot) w (({ t.issued [] with chStatus := 0, chFlags := 0 } : Thread).result d
        (if t.chStatus = 0 then 1 else BitVec.ofNat 64 (t.chStatus.toNat + 256 * t.chFlags.toNat))))
    ∧ (MayPush w t i → queued i = true → ∃ u e, after (.vectorQueuePushResume t.slot) w u ∧ u.queue = t.queue ++ [e]
        ∧ e.instr = expand t.lvd i ∧ e.pc = t.pc ∧ e.seq = t.pushSeq)
    ∧ (s.thread? t.slot = some t → t.amo = none → t.draining = false → ∀ q, (t.qAt q).general.isSome = true →
      exec (.queueRegisterResume t.slot q) s = .next (s.setThread { t with run := .ready }))

/-- R319, R316 to R318, R320, R321, R282, R284, R323, R406: a chord takes a waiting command into its queue of four, begins the next when none
runs, and at the end of a run has written what the run gives and counted it for its thread; an object that waited for its tile is written
once it may be. A move of one element, both sides of one format, copies its bytes and is gone where the engine of its facet is at it; of
another's turn nothing comes (log entry 12: a pause of a run is not seen). A drain writes the combined bytes to their homes and empties
the buffer; where some lie on the backing of a tile that is out, that tile's fetch comes first, or with no free slot its log is applied (log
entry 92). -/
def Obligations.EngineEvents : Prop :=
  (∀ (s : State) (bank : Nat), let k := s.chord bank
    (∀ o c, k.queue.length < 4 → nextCmd s bank = some (o, c) → ∃ s', exec (.chordCommandPlace bank) s = .next s' ∧ s'.mem = s.mem
      ∧ (s'.chord bank).queue = k.queue ++ [c] ∧ (s'.chord bank).running = k.running
      ∧ ∃ x ∈ s'.chruns, x = { o with unplaced := o.unplaced.filter (fun y => y != c), top := max o.top (c.idx + 1) })
    ∧ (∀ c cs, k.running = none → k.queue = c :: cs → ∃ s', exec (.chordRunStart bank) s = .next s' ∧ s'.mem = s.mem
      ∧ (s'.chord bank).running = some c ∧ (s'.chord bank).part = none ∧ (s'.chord bank).queue = cs)
    ∧ (∀ c m fl cause, k.running = some c → (∀ o ∈ s.chruns, o.obj = none) → chordPerform s c k.part (2 ^ 96) = (m, .error (fl, cause)) →
      ∃ s', exec (.chordRunEnd bank) s = .next s' ∧ s'.mem = m ∧ (s'.chord bank).running = none ∧ (s'.chord bank).queue = k.queue
        ∧ ∀ o, s.chruns.find? (fun o => o.id == c.op) = some o → ∀ j t, s.thread? j = some t →
          (t.part, t.launch, t.rank) = (o.part, o.launch, o.rank) → ∃ u, s'.thread? j = some u ∧ u.chOut = t.chOut - 1
            ∧ u.chFlags = t.chFlags ||| fl.setWidth 8
            ∧ u.chStatus.toNat = max t.chStatus.toNat (if cause.isSome then 2 else 1))
    ∧ (∀ o va key, k.running = none → s.chruns.filter (fun o => o.ended == o.total) = [o] → o.obj = some va →
      locate s o.who va .write false = (.at (.mem key), s) → ∃ s', exec (.chordRunEnd bank) s = .next s'
        ∧ (∀ x ∈ s'.chruns, x.id ≠ o.id) ∧ s'.mem.readN key 8 = (chrunWord o).toNat
        ∧ ∀ q, q < key ∨ key + 8 ≤ q → s'.mem.read q = s.mem.read q)
    ∧ exec (.lmaxExpiry bank) s = .next s)
  ∧ (∀ (s : State) (m : Move) (ka kb : Nat), s.moves.find? (fun x => x.id == m.id) = some m → m.fin = none →
    let engine := (engineMove s (m.slot / Config.slotsPerFacet)).map fun x => x.id
    (engine ≠ some m.id → exec (.tmovComplete m.id) s = .next s)
    ∧ (engine = some m.id → m.obj = none → m.push = none → m.pos = 0 → m.used = 0 → m.desc.len = 1 → m.desc.sfmt = m.desc.dfmt →
      m.desc.sfmt < 13 → m.desc.sc = 0 →
      let n := (MFmt.ofCode m.desc.sfmt).bytes
      aligned m.desc.src n = true → aligned m.desc.dst n = true → locate s m.who m.desc.src .read false = (.at (.mem ka), s) →
      locate s m.who m.desc.dst .write false = (.at (.mem kb), s) →
      ∃ s', exec (.tmovComplete m.id) s = .next s' ∧ s' = { s with mem := s'.mem, moves := s.moves.filter fun x => x.id != m.id }
        ∧ s'.mem.readN kb n = s.mem.readN ka n ∧ ∀ q, q < kb ∨ kb + n ≤ q → s'.mem.read q = s.mem.read q))
  ∧ ∀ (s : State) (t : Thread) (l : Launch), s.thread? t.slot = some t → t.draining = true → s.launchOf t = some l →
    drainReady l t.drainNo t.rank = true →
    let p := s.partOf t
    (∀ win w k, p.combOut s.mem t.comb = some (win, w, k) →
      (p.transitOf win k ≠ none → exec (.combineDrain t.slot) s = .next s)
      ∧ (p.transitOf win k = none → (∀ s', startFetch s t.part win w k = some s' → exec (.combineDrain t.slot) s = .next s')
        ∧ (startFetch s t.part win w k = none → exec (.combineDrain t.slot) s = .next (foldLog s t.part win w k))))
    ∧ (p.combOut s.mem t.comb = none → (t.comb.map CombEntry.word).Nodup →
    ∃ s' u, exec (.combineDrain t.slot) s = .next s' ∧ s'.thread? t.slot = some u ∧ u.comb = [] ∧ u.draining = false
      ∧ (drainFence t = none → u.drainedAt = t.pc :: t.drainedAt ∧ u.queue = t.queue)
      ∧ (∀ e, drainFence t = some e → ∀ x ∈ u.queue, x.seq = e.seq → x.done = true)
      ∧ (∀ r, u.rd r = t.rd r) ∧ ∀ a, s'.mem.read a = combByte s t.comb a)

/-- R326, R328, R332, R333, R335, R343, R345, R456, R228: a compacted log counts what compaction left; a tile that arrives is in, in its slot
with an empty log, and one that leaves is out, its backing and its log those that its window was given; the pins of an old binding leave once
no access carries its version. The lattices' rate falls to one eighth once no array cycle has been performed for 1 µs, unless RAMP is 0, and
each credit has risen by it, to 32 at most. The oldest waiter for a tile takes the lowest free one, cleared, and its AALLOC has result 0. The
model's choice: the backing and the log of a tile are those that its window was given when it was registered (log entry 91). -/
def Obligations.TileEvents : Prop :=
  (∀ (s : State) (part win tile : Nat) (w : TiledWin), part < 16 →
    let p := s.parts.toList.getD part {}
    let e := w.given s.mem tile
    let home (x : TileEntry) : Prop := x.back = (w.home tile).1 % 2 ^ 64 ∧ x.log = (w.home tile).2 % 2 ^ 64
    p.window win = some w →
    (p.compacting.contains (win, tile) = true → ∃ s', exec (.tileLogCompaction part win tile) s = .next s'
      ∧ s'.parts.toList.getD part {} = { p with compacting := p.compacting.filter fun c => c ≠ (win, tile) }
      ∧ let e' := w.entry s'.mem tile
        home e' ∧ e'.slot = e.slot ∧ e'.state = e.state
        ∧ e'.fill = (compactLog 1024 (readLog s.mem e.log e.fill)).length % 2 ^ 16)
    ∧ ∀ t, p.transitOf win tile = some t →
      -- the image of no saved thread with combined bytes lies over the map entry
      (∀ v ∈ s.saved, ∀ i, i < v.thread.comb.length → let a := v.image.toNat + 0x60000 + 16 * i + 8
        a + 8 ≤ w.entryAddr tile ∨ w.entryAddr tile + 32 ≤ a) →
      (t.arriving = true → ∃ s', exec (.tileArrival part win tile) s = .next s'
        ∧ (s'.parts.toList.getD part {}).transit = p.transit.filter (fun u => u ≠ t)
        ∧ let e' := w.entry s'.mem tile
          home e' ∧ e'.state = 2 ∧ e'.slot = t.slot.toNat ∧ e'.fill = 0)
      ∧ (t.arriving = false → owedIn s t.slot.toNat tileBytes = false → ∃ s', exec (.tileLeave part win tile) s = .next s'
        ∧ (s'.parts.toList.getD part {}).transit = p.transit.filter (fun u => u ≠ t)
        ∧ let e' := w.entry s'.mem tile
          home e' ∧ e'.state = 1 ∧ e'.slot = 0 ∧ e'.fill = 0))
  ∧ (∀ (s : State) (part n : Nat) (b : BitVec 64) (v : Nat), let p := s.parts.toList.getD part {}
    s.vtab = some b → p.oldVers[n]? = some v → versionInUse s part (BitVec.ofNat 16 v) = false →
    exec (.versionPinRelease part n) s = .next ({ s with mem := pinAll s.mem b.toNat (BitVec.ofNat 16 v) false }.setPart part
      { p with oldVers := p.oldVers.eraseIdx n }))
  ∧ (∀ (s : State) (part : Nat), let p := s.parts.toList.getD part {}
    let now := s.arithCycle
    let n := now - p.creditAt
    let full : Rat := (fld p.ishape.toNat 0 8 + 1 : Nat) / 256
    let ramp := fld p.ishape.toNat 16 10
    ∃ q, exec (.latticeIdleTimeout part) s = .next (s.setPart part q)
      ∧ q = { p with idle := q.idle, rate := q.rate, creditAt := max now p.creditAt, credits := q.credits, credit := q.credit }
      ∧ (q.idle = true ↔ p.idle = true ∨ p.lastArray + 800 ≤ now) ∧ (q.idle = true → q.rate = 1 / 8)
      ∧ (p.idle = true → ∀ f, q.creditOf f = min 32 (p.creditOf f + n * full * if ramp = 0 then 1 else 1 / 8))
      ∧ (p.idle = false → now ≤ p.lastArray + 800 → ramp = 0 ∨ p.rate = 1 → ∀ f, q.creditOf f = min 32 (p.creditOf f + n * full)))
  ∧ ∀ (s : State) (facet : Nat) (w : Waiter) (ws : List Waiter) (t : Thread) (k : Nat) (ks : List Nat) (e : QEntry) (o : XOps),
    (s.facet facet).waiters = w :: ws → s.thread? w.slot = some t → t.unbound = false → freeTiles s facet = k :: ks →
    allocEntry t = some (e, o) →
    ∃ s' u, exec (.aallocWaitBind facet) s = .next s' ∧ s'.thread? w.slot = some u ∧ u.hnd o.a.toNat = some { tile := k }
      ∧ (s'.facet facet).waiters = ws ∧ s'.mem = s.mem ∧ ∀ x ∈ u.queue, x.seq = e.seq → x.done = true ∧ x.result = some 0

/-- R423, R426, R427, R430, R420, R421, R428, R418: the fabric. A chunk of another package's member stays until it is used; a report counts,
and the apex sends abort at the first mismatch and go once every member has matched; go writes the result, raises its flags and completes
the VCOLL, and abort raises COLL_MISMATCH with SKIP. A message's chunk arrives in its receiver's slots; of the chunks with a credit an endpoint
sends first one of the highest LEVEL, then the oldest; each chunk takes a credit, and a slot-free notice returns one. Past ABTNS a fabric
instruction with no step to make raises Fabric Error; a retry of the link is not seen, and a retrain is reported. The model's choices: a sum
that is poisoned raises POISON, code 12, at every member (log entry 47); what a member elsewhere or its apex may send (log entry 31); how
the chunks of a strip are counted (log entries 87 and 88). -/
def Obligations.FabricEvents : Prop :=
  (∀ (s : State) (c : CollChunk), c.ranks ≠ [] → (∀ r ∈ c.ranks, memberElsewhere s c.key r = true) →
    (∀ x ∈ s.contribs, x.chunk.key = c.key → x.chunk.seq = c.seq → ∀ r ∈ x.chunk.ranks, r ∉ c.ranks) →
    exec (.collectiveChunkArrival c) s = .next { s with contribs :=
      s.contribs ++ [{ chunk := c, taken := reachedBy s c, total := arrivals c.data }] })
  ∧ (∀ (s : State) (c : CollChunk) (x : Contribution), c.ranks ≠ [] → (∀ r ∈ c.ranks, memberElsewhere s c.key r = true) →
    x ∈ s.contribs → x.chunk = c →
    exec (.collectiveChunkArrival c) s = .next { s with contribs := s.contribs.map fun (y : Contribution) =>
      if y.chunk = c ∧ y.got < y.total then { y with got := y.got + 1 } else y })
  ∧ (∀ (s : State) (r : ConfirmReport), memberRunning s r.key r.seq r.rank = none → memberElsewhere s r.key r.rank = true →
    let a := apexOf s r.key r.seq
    (∀ x ∈ a.reports, x.1 ≠ r.rank) →
    ∃ d, exec (.confirmationReportArrival r) s = .next (putApex s d) ∧ d.key = a.key ∧ d.seq = a.seq
      ∧ d.count = countHere s r.key r.seq a.count
      ∧ d.reports = a.reports ++ [(r.rank, r.matched)] ∧ (a.decision ≠ none → d.decision = a.decision)
      ∧ (a.decision = none → (d.decision = some false ↔ ∃ x ∈ d.reports, x.2 = false)
        ∧ (d.decision = some true ↔ 0 < d.count ∧ (∀ x ∈ d.reports, x.2 = true) ∧ ∀ q, q < d.count → ∃ x ∈ d.reports, x.1 = q)))
  ∧ (∀ (s : State) (t : Thread) (c : CollAt), s.thread? t.slot = some t → collAt t = some c →
    let r := collResult (collChunks s c) c.o c.count c.rank c.e.vl.toNat
    (checksOf s c = some true → decided s c true = true → stillSends s t c = false → c.e.blks = [] → c.e.qs = [] →
      (r.2.2 = true → ∃ s1 : State, exec (.collectiveGo t.slot) s = .next (s1.setThread (t.failEntry s c.e { code := 12 }))
        ∧ s1.mem = s.mem ∧ s1.threads = s.threads)
      ∧ (r.2.2 = false → ∃ (s1 : State) (u : Thread), exec (.collectiveGo t.slot) s = .next (s1.setThread u)
        ∧ s1.mem = s.mem ∧ s1.threads = s.threads
        ∧ u = { (if c.e.vl = 0 then t else (collWrite t c.e c.o r.1).raise r.2.1) with
            queue := u.queue, tok := u.tok, tokRes := u.tokRes, owed := u.owed }
        ∧ ∀ x ∈ u.queue, x.seq = c.e.seq → x.done = true))
    ∧ (decided s c false = true → ∃ s1 : State, exec (.collectiveAbort t.slot) s = .next (s1.setThread (t.failEntry s c.e { code := 18 }))
        ∧ (∀ y ∈ (t.failEntry s c.e { code := 18 }).queue, y.seq = c.e.seq → y.skip = true) ∧ s1.mem = s.mem ∧ s1.threads = s.threads
        ∧ ∀ x ∈ s1.sends, ¬ (x.slot = t.slot ∧ x.launch = t.launch ∧ x.rank = t.rank ∧ x.seq = c.e.seq)))
  ∧ (∀ (s : State) (m : Message), memberElsewhere s m.key m.src.toNat = true → (∀ b ∈ s.inbox, b.msg = m → b.arrived ≠ b.total) →
    (∀ t ∈ s.threads, runningRecv t m = none) →
    exec (.messageArrival m) s = .next (putChunk s m (messageChunks m)))
  ∧ (∀ (s : State) (facet : Nat) (x : Send), nextSend s facet = some x →
    x ∈ s.sends ∧ x.slot / Config.slotsPerFacet = facet ∧ hasCredit s x = true
      ∧ (∀ y ∈ s.sends, y.slot / Config.slotsPerFacet = facet → y.sent < y.total → hasCredit s y = true →
        sendLevel s y ≤ sendLevel s x ∧ (sendLevel s y = sendLevel s x → x.order ≤ y.order))
      ∧ ∃ s', exec (.endpointChunkSend facet) s = .next s' ∧ s'.mem = s.mem
        ∧ (x.sent + 1 = x.total → ∀ y ∈ s'.sends, y.order ≠ x.order)
        ∧ (x.sent + 1 ≠ x.total → ∃ y ∈ s'.sends, y = { x with sent := x.sent + 1 })
        ∧ (∀ m, x.load = .msg m → (streamFor s' m).spent = (streamFor s m).spent + 1 ∧ (x.here = true → ∃ b ∈ s'.inbox, b.msg = m))
        ∧ ∀ c, x.load = .coll c → s'.inbox = s.inbox
          ∧ (x.sent + 1 ≠ x.total → x.toRank c < 2 ^ 32 →
            (collStream s' c (x.toRank c)).spent = (collStream s c (x.toRank c)).spent + 1)
          ∧ ∀ y ∈ s.contribs, y.chunk.key = c.key → y.chunk.ranks = c.ranks → y.chunk.seq = c.seq →
            { y with got := y.got + 1 } ∈ s'.contribs)
  ∧ (∀ (s : State) (h : Nat) (x : FStream), s.fstreams[h]? = some x →
    (0 < x.notices → exec (.slotFreeNotice h) s = .next (s.putStream { x with notices := x.notices - 1, spent := x.spent - 1 }))
    ∧ (x.notices = 0 → (memberElsewhere s x.key x.dst.toNat = true ∨ ∃ q, x.coll = some q ∧ runsColl s x.key q x.dst.toNat = true) →
      exec (.slotFreeNotice h) s = .next (s.putStream { x with spent := x.spent - 1 })))
  ∧ (∀ (s : State) (t : Thread) (port : BitVec 8) (e : QEntry) (h : BitVec 32), s.thread? t.slot = some t →
    runningFabric t = some (e, h) →
    (stepReady s t e = true → exec (.fabricErrorTimeout t.slot port) s = .next s)
    ∧ (stepReady s t e = false → (planOf s t.part h).abtns ≤ s.time.toNat - e.began.toNat →
      ∃ s1 : State, exec (.fabricErrorTimeout t.slot port) s = .next (s1.setThread
        (t.failEntry s e { code := 19, detail := if h ≠ 0 ∧ port.toNat < 16 then port.setWidth 64 else 0xFF }))
      ∧ s1.mem = s.mem ∧ s1.threads = s.threads
      ∧ s1.reports = s.reports ++ (if h ≠ 0 ∧ port.toNat < 16 then [.linkFailing port] else [])))
  ∧ ∀ (s : State) (n : Nat) (port : BitVec 4), exec (.linkFlitRetry n) s = .next s
    ∧ exec (.linkRetrain port) s = .next { s with reports := s.reports ++ [.retrained port] }

/-- R144, R149, R150, R169, R269, R449, R454: the scheduler places the thread that comes first on the slot it chooses, and a fresh one starts
at its entry with its five arguments, every other register zero, in user mode, its unit window zero; a saved one goes on from its frame,
with the registers, the queue and the unit window of its image, and its image is free again; a halted one stays halted, and one whose
image cannot be resumed from is halted and reported. A pre-empted thread begins to be saved; one whose vector side has stopped is saved and
its slot is free. -/
def Obligations.SchedulerEvents : Prop :=
  (∀ (s : State) (part slot : Nat) (l : Launch), part < 16 → let p := s.parts.toList.getD part {}
    s.recovery = false → p.valid = true → slotChosen s p slot = true → firstWaiting p (waiting s part p) = some (.fresh l) →
    ∃ s' u, exec (.slotPlacement part slot) s = .next s' ∧ s'.thread? slot = some u
      ∧ u.slot = slot ∧ u.part = part ∧ u.launch = l.id ∧ u.rank = l.next ∧ u.run = .ready ∧ u.sup = false ∧ u.pc = l.entry
      ∧ u.rd 2 = p.uva + BitVec.ofNat 64 (2 ^ p.uwlog.toNat) ∧ u.rd 3 = l.args ∧ u.rd 4 = BitVec.ofNat 64 l.next
      ∧ u.rd 5 = BitVec.ofNat 64 l.count ∧ (∀ r, r ≠ 2 → r ≠ 3 → r ≠ 4 → r ≠ 5 → u.rd r = 0)
      ∧ u.det = l.det ∧ u.level = l.prio ∧ u.aspace = l.aspace ∧ u.queue = []
      ∧ (∀ k, k < 65536 → s'.mem.read (unitBase slot + k) = 0)
      ∧ (∀ a, a < unitBase slot ∨ unitBase slot + 65536 ≤ a → s'.mem.read a = s.mem.read a)
      ∧ ∀ k, k ≠ slot → s'.thread? k = s.thread? k)
  ∧ (∀ (s : State) (part slot : Nat) (v : SavedThread), part < 16 → let p := s.parts.toList.getD part {}
    s.recovery = false → p.valid = true → slotChosen s p slot = true → firstWaiting p (waiting s part p) = some (.saved v) →
    let a := v.image.toNat
    let frame := s.mem.readBytes a 0x4000
    let cause := word64 frame 0
    let image := readImage s.mem a { v.thread with slot := slot }
    let free := p.freeList.toNat
    let n := s.mem.readN free 8
    let placed (f : State → Thread → Prop) : Prop := ∃ s' w, exec (.slotPlacement part slot) s = .next s' ∧ s'.thread? slot = some w
      ∧ (∀ k, k ≠ slot → s'.thread? k = s.thread? k) ∧ s'.saved = s.saved.filter (· ≠ v) ∧ f s' w
    (∀ u, image = some u → aspaceOk u.aspace = true → u.h0 = none → u.h1 = none →
      (v.thread.run ≠ .halted → frameOk frame = true → bitAt cause 13 = false → (∀ h ∈ v.thread.held, h.fault = none) →
        free + 8 * (p.imageCap.toNat + 1) ≤ 2 ^ 53 →
        placed fun s' w => w.run = .ready ∧ w.pc = BitVec.ofNat 64 (word64 frame 8) ∧ w.sup = bitAt cause 9 ∧ w.nest = none
          ∧ (∀ r : Reg, r ≠ 0 → w.rd r = BitVec.ofNat 64 (word64 frame (0x200 + 8 * r.toNat)))
          ∧ w.queue.length = word64 frame 48 - (if bitAt cause 12 then 1 else 0)
          ∧ w = { u with g := w.g, nest := w.nest, replay := w.replay, sup := w.sup, queue := w.queue, held := [], pushSeq := w.pushSeq,
                         pc := w.pc, run := .ready, splitC := w.splitC, vl := w.vl, chain := w.chain, view0 := w.view0, view1 := w.view1,
                         drainedAt := w.drainedAt }
          ∧ (∀ k, k < 2 ^ p.uwlog.toNat → s'.mem.read (unitBase slot + k) = s.mem.read (a + 0x1C000 + k))
          ∧ (n < p.imageCap.toNat → s'.mem.readN free 8 = n + 1 ∧ s'.mem.readN (free + 8 + 8 * n) 8 = a))
      ∧ (v.thread.run = .halted → placed fun s' w => w = u ∧ w.run = .halted ∧ s'.mem.readBytes (s.frameBase u) 0x4000 = frame))
    ∧ ((image = none ∨ ∃ u, image = some u ∧ (aspaceOk u.aspace = false ∨ (v.thread.run ≠ .halted ∧ frameOk frame = false))) →
      placed fun s' w => w.run = .halted ∧ s'.reports = s.reports ++ [.halted slot]))
  ∧ ∀ (s : State) (t : Thread), s.thread? t.slot = some t →
    (t.run.isSaving = false → deferred s t = false → (t.evict = true ∨ isVictim s t = true) → t.amo = none →
      exec (.preemption t.slot) s = .next (s.setThread { t with run := .saving (t.run == .halted), pubV := none }))
    ∧ ∀ h a m, t.run = .saving h → saveReady s t = true → popImage s (s.partOf t) = some (a, m) →
      ∃ s' v, exec (.contextSaveDone t.slot) s = .next s' ∧ s'.thread? t.slot = none ∧ s'.saved = s.saved ++ [v]
        ∧ v.image = BitVec.ofNat 64 a ∧ v.thread.launch = t.launch ∧ v.thread.rank = t.rank ∧ v.thread.pc = t.pc
        ∧ ∀ k, k ≠ t.slot → s'.thread? k = s.thread? k

/-- R363, R452 to R454, R356, R461, R466 to R468, R433: what comes from outside the cores. An error that a memory access of the control thread
meets is its Lasting Error trap, and of a page-table read its Walk Error; a queue entry stops with it in the element group of the error, and
a tile move ends there with its cause. In a tile an error poisons an accumulator, corrected it is counted, and a failing part marks its
facet and zeroes the registers it lost. A host access reads or writes the bytes
it reaches, but none in recovery; moving the HDM window moves its base; power-on leaves no thread and no partition; the loss of an expander
unmaps it; a failed link, and PTP lock gained or lost, are noted and appended as events. A Sync gives its offset: while the port is locked,
TIME steps forward at the first lock or past 1 ms, and is slewed otherwise. The model's choices: where an error may meet an access, and that
the HDM base is a multiple of 16 TiB (log entry 72); the sign of the offset, and which offsets step TIME (log entry 73); the offset's formula
and the slew (log entry 94); the causes of a move's errors (log entry 109), and that lost registers read as zero at once (log entry 108). -/
def Obligations.DeviceEvents : Prop :=
  (∀ (s : State) (f : Nat), f < Config.facets → ∃ s', exec (.storageErrorDetected (.soft f)) s = .next s' ∧ s'.mem = s.mem
    ∧ (s'.facet f).soft = (s.facet f).soft + 1 ∧ s'.reports = s.reports ++ [.softError f] ∧ s'.threads = s.threads)
  ∧ (∀ (s : State) (t : Thread) (addr : BitVec 64) (acc : BitVec 2), s.thread? t.slot = some t →
    let lasting : Trap := { code := 20, addr := addr, acc := acc.toNat, detail := 0x101 }
    let walk : Trap := { code := 7, addr := addr, acc := acc.toNat }
    (t.active? = true → t.amo = none → AtRest s t →
      exec (.storageErrorDetected (.memory t.slot .control addr acc)) s = .next (enterTrap s t lasting false t.pc t.pc false)
      ∧ exec (.storageErrorDetected (.walk t.slot .control addr acc)) s = .next (enterTrap s t walk false t.pc t.pc false))
    ∧ ∀ (e : QEntry) (k : Nat), nextEntry s t = some e → e.live = false →
      let c := e.inner t
      let stopped (tr : Trap) : State := s.setThread (t.failEntry s e tr)
      c.vstart.toNat ≤ k →
      (k / groupLen (qForm c.instr) (c.info t.splitV) * groupLen (qForm c.instr) (c.info t.splitV) ≤ c.vstart.toNat →
        exec (.storageErrorDetected (.memory t.slot (.entry k) addr acc)) s = .next (stopped lasting))
      ∧ (roundLimit (qForm c.instr) k ≤ c.vstart.toNat →
        exec (.storageErrorDetected (.walk t.slot (.entry k) addr acc)) s = .next (stopped walk)))
  ∧ (∀ (s : State) (m : Move) (va addr : BitVec 64) (acc : BitVec 2) (slot key : Nat), m ∈ s.moves → (s.moves.map Move.id).Nodup →
    m.fin = none → m.pos < m.desc.len → m.obj = some va → m.push = none → locate s m.who va .write false = (.at (.mem key), s) →
    ∀ p ∈ [(StorageFault.memory slot (.move m.id) addr acc, 1), (.walk slot (.move m.id) addr acc, 6)],
      ∃ s', exec (.storageErrorDetected p.1) s = .next s' ∧ s'.moves = s.moves.filter (fun x => x.id != m.id) ∧ s'.threads = s.threads
        ∧ s'.mem.readN key 8 = m.seq.toNat % 2 ^ 8 * 2 ^ 56 + m.pos % 2 ^ 40 * 2 ^ 16 + p.2 * 2 ^ 8 + 2
        ∧ ∀ q, q < key ∨ key + 8 ≤ q → s'.mem.read q = s.mem.read q)
  ∧ (∀ (s : State) (t : Thread) (h : Nat) (i j : BitVec 5) (b : BoundTile), s.thread? t.slot = some t → t.hnd h = some b →
    ∃ b', exec (.storageErrorDetected (.tile t.slot h i j)) s = .next (s.setThread (t.setHnd h (some b'))) ∧ b'.tile = b.tile
      ∧ (b'.at i.toNat j.toNat).poison = true ∧ ∀ x y, x < 32 → y < 32 → (x, y) ≠ (i.toNat, j.toNat) → b'.at x y = b.at x y)
  ∧ (∀ (s : State) (t : Thread) (code : BitVec 4) (lost : List (Nat × ErrReg)), s.thread? t.slot = some t → 2 ≤ code.toNat →
    code.toNat ≤ 10 → t.active? = true → t.amo = none → AtRest s t →
    ∃ s', exec (.storageErrorDetected (.part t.slot .control code lost)) s = .next s' ∧ (s'.facet t.facet).failing = true
      ∧ .replacement t.facet ∈ s'.reports ∧ (∀ u ∈ s'.threads, u.facet = t.facet → u.slot ≠ t.slot → u.evict = true)
      ∧ ∀ u ∈ s'.threads, u.facet = t.facet → ∀ r, (u.slot, r) ∈ lost → r ∈ u.lost
        ∧ ∀ v k, r = .vector v → k < rlenOf u.splitV → Cells.get 0 u.vreg (rlenOf u.splitV * v.toNat + k) = 0)
  ∧ (∀ (s : State) (a : BitVec 64) (bs : List (BitVec 8)),
    (s.recovery = true → ∀ wr, exec (.hostMemAccess wr a bs) s = .next s)
    ∧ (s.recovery = false → hostReaches s a.toNat bs.length = true →
      (∃ s', exec (.hostMemAccess true a bs) s = .next s' ∧ s' = { s with mem := s'.mem }
        ∧ (∀ k, k < bs.length → s'.mem.read (a.toNat + k) = bs.getD k 0)
        ∧ ∀ q, q < a.toNat ∨ a.toNat + bs.length ≤ q → s'.mem.read q = s.mem.read q)
      ∧ exec (.hostMemAccess false a bs) s = .next { s with hostRead := s.mem.readBytes a.toNat bs.length }))
  ∧ (∀ (s : State) (base : BitVec 52), ∃ s', exec (.hdmDecoderWrite base) s = .next s' ∧ s' = { s with mem := s'.mem, hdmbase := s'.hdmbase }
    ∧ s'.hdmbase.toNat = base.toNat / 2 ^ 44 * 2 ^ 44 ∧ (s'.hdmbase = s.hdmbase → s' = s))
  ∧ (∀ (s : State) (b : BootInfo), ∃ s', exec (.powerOnReset b) s = .next s' ∧ s'.threads = [] ∧ s'.saved = []
    ∧ s'.parts = Vector.replicate 16 {} ∧ s'.vtab = none ∧ s'.plans = [] ∧ s'.time = 0 ∧ s'.slew = 600
    ∧ s'.recovery = !imageAccepted s (s.stored.getD s.firmware)
    ∧ ∀ k, k < 4 → (s'.memcap.toList.getD k 0).toNat =
      if s'.recovery then 0 else min (b.caps.getD k 0).toNat (2 ^ 41))
  ∧ (∀ (s : State) (port : BitVec 2), s.memcap.toList.getD port.toNat 0 ≠ 0 → ∃ s', exec (.expanderLost port) s = .next s'
    ∧ s'.memcap.toList.getD port.toNat 0 = 0 ∧ s'.evCount = s.evCount + 1)
  ∧ (∀ (s : State) (port : BitVec 4), ∃ s', exec (.fuondLinkFailed port) s = .next s' ∧ s'.failedPorts.getLsbD port.toNat = true
    ∧ s'.evCount = s.evCount + 1)
  ∧ (∀ (s : State) (m : PtpMessage),
    (m.transport ≠ s.ptp.transport → exec (.ptpMessage m) s = .next s)
    ∧ (m.transport = s.ptp.transport → s.ptp.role = .receiver → ∀ o, m.body = .sync (some o) →
      let off : Int := (s.time.toNat : Int) - (o.toNat : Int) - s.ptp.pathDelay
      let steps : Prop := off < 0 ∧ (s.ptpEver = false ∨ off < -1000000)
      ∃ s', exec (.ptpMessage m) s = .next s' ∧ (s'.ptpLocked = true ↔ m.locked = true ∨ s.ptpLocked = true)
        ∧ s'.evCount = s.evCount + (if m.locked && !s.ptpLocked then 1 else 0)
        ∧ (s'.ptpLocked = false → s'.time = s.time ∧ s'.ptpSlew = s.ptpSlew ∧ s'.ptpOffset = BitVec.ofInt 64 off)
        ∧ (s'.ptpLocked = true → steps → s'.time = BitVec.ofNat 64 (min (s.time.toNat + off.natAbs) (2 ^ 64 - 1)) ∧ s'.ptpSlew = 0
          ∧ s'.ptpOffset = 0)
        ∧ (s'.ptpLocked = true → ¬ steps → s'.time = s.time ∧ s'.ptpSlew = -8000 * off ∧ s'.ptpOffset = BitVec.ofInt 64 off)))
  ∧ (∀ (s : State), s.ptpLocked = true → ∃ s', exec .ptpLockLost s = .next s' ∧ s'.ptpLocked = false ∧ s'.evCount = s.evCount + 1)
  ∧ ∀ (s : State) (port : BitVec 4),
    (s.ptp.role = .transmitter →
      exec (.syncInterval port) s = .next { s with syncs := s.syncs + if s.ptp.steps = .two then 2 else 1 })
    ∧ (s.ptp.role = .receiver →
      exec (.syncInterval port) s = .next { s with syncs := s.syncs + 1, ptp := { s.ptp with request := some s.time, answer := none } })

/-! ### Management -/

/-- R462 to R464, R324, R452, R458, R467: a command that waits on a channel is answered there, with its SEQ: IDENT, STATUS, SLEW, PKGID, SOFTC,
MEMCAP and LMAX by what they read and set; −1 for an OP that names no command and for a record with a reserved byte, −2 for a value out of
range, −3 where the state refuses it, −5 in recovery for all but IDENT, STATUS and FWUPD. A mailbox response holds SEQ, RESULT and the
values at their places. The model's choice: in recovery −1 comes before −5 (log entry 70). -/
def Obligations.RegisterCommands : Prop :=
  ∀ (s : State) (ch : Channel) (c : Cmd), pendingCmd s ch = some c →
    let gives (i : Instr) (s2 : State) (a : Answer) : Prop := exec i s = .next (respond s2 ch c.seq a)
    let code (i : Instr) (r : BitVec 64) : Prop := gives i s { result := r }
    ((c.clean = false ∨ c.op = 0 ∨ 14 < c.op) → code (.unknownCommand ch) (-1))
    ∧ (c.clean = true →
      (c.op = 1 → gives (.ident ch) s { value0 := Config.idWord.setWidth 64 })
      ∧ (c.op = 10 →
        let v := (if s.ptpLocked then 1 else 0) + (if s.recovery then 2 else 0) + failingFacets s % 4096 * 2 ^ 16
        gives (.status ch) s { value0 := BitVec.ofNat 64 v, value1 := s.ptpOffset })
      ∧ (s.recovery = true → ∀ p ∈ [(2, Instr.partset ch), (3, .lmax ch), (5, .planld ch), (6, .planfr ch), (7, .slew ch), (8, .pkgid ch),
          (12, .softc ch), (13, .launch ch), (14, .memcap ch)], c.op = p.1 → code p.2 (-5))
      ∧ (s.recovery = true → c.op = 4 → code (if c.a0 = 1 then .vtabRemove ch else .vtabRegister ch) (-5))
      ∧ (s.recovery = true → c.op = 9 → code (if c.a0 = 1 then .dbgDetach ch else if c.a0 = 2 then .dbgResume ch
          else if c.a0 = 3 then .dbgSave ch else if c.a0 = 4 then .dbgRestore ch else .dbgAttach ch) (-5))
      ∧ (s.recovery = false →
        (c.op = 7 → (50 ≤ c.a0.toNat → c.a0.toNat ≤ 4000 → gives (.slew ch) { s with slew := c.a0.setWidth 16 } {})
          ∧ ((c.a0.toNat < 50 ∨ 4000 < c.a0.toNat) → code (.slew ch) (-2)))
        ∧ (c.op = 8 → (c.a0.toNat < 65536 → s.plans = [] → gives (.pkgid ch) { s with pkgid := c.a0.setWidth 16 } {})
          ∧ (65536 ≤ c.a0.toNat → code (.pkgid ch) (-2)) ∧ (c.a0.toNat < 65536 → s.plans ≠ [] → code (.pkgid ch) (-3)))
        ∧ (c.op = 12 → (c.a0.toNat < 4096 → gives (.softc ch) s { value0 := BitVec.ofNat 64 (s.facet c.a0.toNat).soft })
          ∧ (4096 ≤ c.a0.toNat → code (.softc ch) (-2)))
        ∧ (c.op = 14 → (c.a0.toNat < 4 → gives (.memcap ch) s { value0 := s.memcap.toList.getD c.a0.toNat 0 })
          ∧ (4 ≤ c.a0.toNat → code (.memcap ch) (-2)))
        ∧ (c.op = 3 → let p := s.parts.toList.getD c.a0.toNat {}
          (c.a0.toNat < 16 → 64 ≤ c.a1.toNat → c.a1.toNat ≤ 4095 →
            (p.valid = true → gives (.lmax ch) (s.setPart c.a0.toNat { p with lmax := c.a1 }) {}) ∧ (p.valid = false → code (.lmax ch) (-3)))
          ∧ ((16 ≤ c.a0.toNat ∨ c.a1.toNat < 64 ∨ 4095 < c.a1.toNat) → code (.lmax ch) (-2)))))
    ∧ ∀ (s2 : State) (a : Answer) (sup : Bool), let m := respond s2 (if sup then .supervisor else .host) c.seq a
      m.mem.readN (s2.mailbox sup + 0x40) 8 = c.seq.toNat ∧ m.mem.readN (s2.mailbox sup + 0x48) 8 = a.result.toNat
        ∧ m.mem.readN (s2.mailbox sup + 0x50) 8 = a.value0.toNat ∧ m.mem.readN (s2.mailbox sup + 0x58) 8 = a.value1.toNat
        ∧ (if sup then m.seqSup else m.seqHost) = c.seq

/-- R145, R341, R343, R418, R445, R464, R465, R468: what the commands on partitions, the version table, plans, launches, firmware and halted
threads do once their checks pass, and their refusals by state. The model's choices: PLANFR of an unused handle answers −3, DBG detach takes
its partition from ARG1, restore answers −4 for want of tiles and resume −3 while a tile of the thread moves (log entry 71); what of an image
breaks its limits, so that restore answers −2 (log entry 24); a partition keeps the save area's header, and the version table's regions, as
they were at registration (log entry 91). -/
def Obligations.ObjectCommands : Prop :=
  ∀ (s : State) (ch : Channel) (c : Cmd), pendingCmd s ch = some c → c.clean = true → s.recovery = false →
    let gives (i : Instr) (s2 : State) (a : Answer) : Prop := exec i s = .next (respond s2 ch c.seq a)
    let pn := c.a0.toNat
    let part (s : State) : Partition := s.parts.toList.getD pn {}
    (c.op = 2 → pn < 16 → c.a1.toNat % 32 = 0 → rangeReaches s c.a1.toNat 320 = true → let d := readPartDesc s.mem c.a1.toNat
      (d.first = 0 → d.rest = true → (part s).launches = [] →
        ∃ s2, gives (.partset ch) s2 {} ∧ (part s2).valid = false ∧ s2.mem = s.mem ∧ s2.threads = s.threads)
      ∧ (d.first = 1 → d.sound s = true → (part s).launches = [] → d.conflicts s pn (part s) = false →
        ∃ s2, gives (.partset ch) s2 {} ∧ s2.threads = s.threads ∧ (part s2).valid = true ∧ (part s2).clusters = d.clusters
          ∧ (part s2).ranges = d.ranges ∧ (part s2).savebase.toNat = d.savebase % 2 ^ 64 ∧ (part s2).launches = []
          ∧ (part s2).bound = s.vtab.isSome ∧ (part s2).rate = 1 / 8 ∧ (part s2).idle = true ∧ (∀ f, (part s2).creditOf f = 0)
          -- the header of the save area as it stands now (log entry 91)
          ∧ (s.vtab = none → let h (k n : Nat) : Nat := s.mem.readN (d.savebase + k) n
            (part s2).tvec.toNat = h 0 8 ∧ (part s2).fva.toNat = h 8 8 ∧ (part s2).freeList.toNat = h 16 8
              ∧ (part s2).imageCap.toNat = h 24 4))
      ∧ (d.first = 1 → d.sound s = true → (part s).launches ≠ [] → gives (.partset ch) s { result := -3 }))
    ∧ (c.op = 4 → c.a0 = 0 → inDieBanks s c.a1.toNat tableSize = true → tableBad s c.a1.toNat = false →
      (s.vtab = none → tableConflicts s c.a1.toNat = false → ∃ s2, gives (.vtabRegister ch) s2 {} ∧ s2.vtab = some c.a1 ∧ s2.vpins = []
        ∧ s2.vgiven = givenRegions s.mem c.a1.toNat
        ∧ ∀ k, k < 16 → (s.parts.toList.getD k {}).valid = true → (s2.parts.toList.getD k {}).bound = true)
      ∧ (s.vtab ≠ none → gives (.vtabRegister ch) s { result := -3 }))
    ∧ (c.op = 4 → c.a0 = 1 → (s.vtab = none → gives (.vtabRemove ch) s { result := -3 })
      ∧ (s.vtab ≠ none → (∀ p ∈ s.parts.toList, p.launches = []) → ∃ s2, gives (.vtabRemove ch) s2 {} ∧ s2.vtab = none ∧ s2.vgiven = []
        ∧ ∀ p ∈ s2.parts.toList, p.bound = false))
    ∧ (c.op = 5 → pn < 16 → (part s).valid = true → s.plans.length < 2 ^ 31 → ∀ p, readPlan s pn c.a1.toNat = some p →
      (Config.hopsHaveSlots s.ctr = true → ∃ (h : BitVec 32) (s2 : State) (v : BitVec 64), gives (.planld ch) s2 ⟨0, h.setWidth 64, v⟩
        ∧ h ≠ 0 ∧ (∀ q ∈ s.plans, q.handle ≠ h) ∧ (∃ q, s2.plans = s.plans ++ [q] ∧ q.handle = h ∧ q.part = pn ∧ q.members = p.members)
        ∧ ((∀ m ∈ p.members, m = s.pkgid) → v = 400) ∧ 400 ≤ v.toNat)
      ∧ (Config.hopsHaveSlots s.ctr = false → ∃ s2, gives (.planld ch) s2 { result := -4 } ∧ s2.plans = s.plans))
    ∧ (c.op = 6 → pn < 16 → c.a1 ≠ 0 → c.a1.toNat < 2 ^ 32 → let h : BitVec 32 := c.a1.setWidth 32
      ((∃ p ∈ s.plans, p.part = pn ∧ p.handle = h) → planBusy s pn h = false →
        gives (.planfr ch) { s with plans := s.plans.filter fun p => !(p.part == pn && p.handle == h) } {})
      ∧ ((∀ p ∈ s.plans, p.part ≠ pn ∨ p.handle ≠ h) → gives (.planfr ch) s { result := -3 }))
    ∧ (c.op = 11 → rangeReaches s c.a1.toNat c.a2.toNat = true → let img := s.mem.readBytes c.a1.toNat c.a2.toNat
      (imageAccepted s img = true → gives (.fwupd ch) { s with stored := some img } { value0 := Config.imageVersion img })
      ∧ (imageAccepted s img = false → gives (.fwupd ch) s { result := -2 }))
    ∧ (c.op = 13 → c.a0.toNat < 2 → c.a1.toNat % 32 = 0 → aspaceOk c.a2 = true → rangeReaches s c.a1.toNat 32 = true →
      let r := parseLaunch (s.mem.readBytes c.a1.toNat 32)
      r.partOk s = true → r.queueFull s = false → r.sound = true → r.tableFull s = false →
      ∃ (id : Nat) (s2 : State) (l : Launch), gives (.launch ch) s2 { value0 := BitVec.ofNat 64 id } ∧ id < 2 ^ 32
        ∧ (∀ m ∈ (s.parts.toList.getD r.part {}).launches, m.id ≠ id)
        ∧ (s2.parts.toList.getD r.part {}).launches = (s.parts.toList.getD r.part {}).launches ++ [l]
        ∧ l.id = id ∧ l.entry = r.entry ∧ l.args = r.args ∧ l.count = r.count ∧ l.pe = c.a0.getLsbD 0 ∧ l.aspace = c.a2)
    ∧ (c.op = 9 → let k := c.a1.toNat
      let p := s.parts.toList.getD k {}
      (c.a0 = 0 → k < 16 → p.valid = true → gives (.dbgAttach ch) (s.setPart k { p with debugger := true }) {})
      ∧ (c.a0 = 0 → k < 16 → p.valid = false → gives (.dbgAttach ch) s { result := -3 })
      ∧ (c.a0 = 1 → k < 16 → gives (.dbgDetach ch) (s.setPart k { p with debugger := false }) {})
      ∧ (k < 16384 → (∀ t, s.thread? k = some t → t.run ≠ .halted) → (c.a0 = 2 → gives (.dbgResume ch) s { result := -3 })
        ∧ (imageArg s c.a2 = true → (c.a0 = 3 → gives (.dbgSave ch) s { result := -3 })
          ∧ (c.a0 = 4 → imageSound s c.a2.toNat = true → gives (.dbgRestore ch) s { result := -3 })))
      ∧ (imageArg s c.a2 = false → (c.a0 = 3 → gives (.dbgSave ch) s { result := -2 }) ∧ (c.a0 = 4 → gives (.dbgRestore ch) s { result := -2 }))
      ∧ (imageSound s c.a2.toNat = false → c.a0 = 4 → gives (.dbgRestore ch) s { result := -2 })
      ∧ ∀ t, k < 16384 → s.thread? k = some t → t.run = .halted →
        (c.a0 = 2 → let bs := s.mem.readBytes (s.frameBase t) 0x4000
          (∀ s' u, resume s t bs false = some (s', u) → gives (.dbgResume ch) (s'.setThread u.awaitTiles) {})
          ∧ (resume s t bs false = none → gives (.dbgResume ch) s { result := -3 }))
        ∧ (c.a0 = 3 → imageArg s c.a2 = true → ∃ s2, gives (.dbgSave ch) s2 {} ∧ s2 = { s with mem := s2.mem }
          ∧ s2.mem.readBytes c.a2.toNat 0x4000 = s.mem.readBytes (s.frameBase t) 0x4000)
        ∧ (c.a0 = 4 → imageArg s c.a2 = true → imageSound s c.a2.toNat = true →
          (∀ s2, restoreHalted s t c.a2.toNat = some s2 → gives (.dbgRestore ch) s2 {})
          ∧ (restoreHalted s t c.a2.toNat = none → gives (.dbgRestore ch) s { result := -4 })))

/-- R469, R470: each SPDM request is answered on the wire it came by with its response: GET_VERSION with version 1.3, NEGOTIATE_ALGORITHMS,
GET_CERTIFICATE and CHALLENGE with the HSS LMS SHA-256 identity key, GET_MEASUREMENTS with the firmware digest, the rollback counter and the
identification word; and a secured session then stands on that wire. Nothing else changes (log entry 7: the bytes that the spec leaves to
DMTF DSP0274 are free). -/
def Obligations.SpdmResponses : Prop :=
  ∀ (s : State) (w : SpdmPort),
    let sent (s : State) (k : SpdmKind) : State := { s with spdm := s.spdm ++ [⟨w, k, s.ctr⟩], ctr := s.ctr + 1 }
    let measured : SpdmKind := .measurements (Config.firmwareDigest s.firmware) s.rollback 0x0A288218
    exec (.getVersion w) s = .next (sent s (.version 0x13))
    ∧ exec (.getCapabilities w) s = .next (sent s .capabilities)
    ∧ exec (.negotiateAlgorithms w) s = .next (sent s (.algorithms .hssLmsSha256))
    ∧ exec (.getDigests w) s = .next (sent s .digests)
    ∧ exec (.getCertificate w) s = .next (sent s (.certificate .hssLmsSha256))
    ∧ exec (.challenge w) s = .next (sent s (.challengeAuth .hssLmsSha256))
    ∧ exec (.getMeasurements w) s = .next (sent s measured)
    ∧ (w = .doe → exec (.securedSession w) s = .next (sent { s with doeSession := true } .session))
    ∧ (w = .management → exec (.securedSession w) s = .next (sent { s with mgmtSession := true } .session))

/-! ### Steps, reset and decoding -/

/-- R47, R48, R76, R139, R165: a step takes the turn that comes next. In the issue turn of a slot whose turn in rotation has come, a ready
thread's instruction is the one that the parcels at its pc decode to, lowest first, or the next of its loop buffer, and a blocked thread's the
one it is blocked in; the step is that instruction executed in the thread cycle in which the facet is free, after the stores that the C stream
holds where the instruction waits for them, with the agenda and the counter gone on, where no store is half performed (log entries 4, 12, 28
and 41). Bits that decode to nothing are an Illegal Instruction at the pc, and an odd pc is a Misaligned Access. The parcels come from memory
where no copy of code is held. A slot whose turn has not come does nothing. An event's turn is that event: one that ends a thread's wait is
the thread's issue turn, and at the end of a drain the instruction that waited for it is executed. -/
def Obligations.StepRunsInstruction : Prop :=
  ∀ (s : State), s.torn = none → let base := turnBase s
    (∀ k, s.agenda.head? = some k → turnOf s = k)
    ∧ (∀ ev u, turnOf s = .event ev → isEvent ev = true → wakeSlot ev = none → (∀ k, ev ≠ .combineDrain k) →
      exec ev (eventTime s) = .next u → step s = .next (stampReady (eventTime s) u))
    -- a drain, and at its end the instruction that waited for it
    ∧ (∀ k w u v, turnOf s = .event (.combineDrain k) → (eventTime s).thread? k = some w → exec (.combineDrain k) (eventTime s) = .next u →
      u.thread? k = some v →
      (v.draining = true → step s = .next (stampReady (eventTime s) u))
      ∧ ∀ i y, w.draining = true → v.draining = false → drainFence w = none → v.run = .blocked i →
        let u' : State := { u with cur := k }
        exec i (if flushesFirst i || joinsQueues u' then flushHeld u' k else u') = .next y →
        step s = .next (stampReady (eventTime s) y))
    -- a store that is held: no earlier one of its stream meets its bytes
    ∧ (∀ k j w, (eventTime s).thread? k = some w →
      let done (a : Nat) (bs : List (BitVec 8)) (u : Thread) : Prop :=
        step s = .next (stampReady (eventTime s) ({ eventTime s with mem := (eventTime s).mem.writeBytes a bs }.setThread u))
      (∀ a bs, turnOf s = .performStore k j → w.cbuf[j]? = some (a, bs) →
        (∀ x ∈ w.cbuf.take j, overlap x.1 x.2.length a bs.length = false) → let rest := w.cbuf.eraseIdx j
        done a bs { w with cbuf := rest, cvia := if rest = [] then [] else w.cvia })
      ∧ ∀ v, turnOf s = .performV k j → w.vbuf[j]? = some v →
        (∀ x ∈ w.vbuf.take j, overlap x.key x.bytes.length v.key v.bytes.length = false) →
        done v.key v.bytes { w with vbuf := w.vbuf.eraseIdx j })
    ∧ ∀ (t : Thread),
      (turnOf s = .issue t.slot → s.thread? t.slot = some t → mayIssue base t (issueCycle s t) = false →
        step s = .next (stampReady base base))
      ∧ (MayServe s t → let x := served s t
        let answers (y : State) : Prop := step s = .next (turnEnd s t y)
        let runs (i : Instr) (y : State) : Prop :=
          ∀ u, exec i (if flushesFirst i || joinsQueues y then flushHeld y y.cur else y) = .next u → answers u
        (∀ ev u, turnOf s = .event ev → wakeSlot ev = some t.slot → exec ev (advance base (issueCycle s t)) = .next u → answers u)
        ∧ (turnOf s = .issue t.slot →
          (∀ i, t.run = .blocked i → runs i x)
          ∧ (t.run = .ready →
            (∀ n u i, t.nest = some n → t.enterIter = some u → n.body[n.pos]? = some i → runs i (x.setThread u))
            ∧ (t.nest = none →
              (∀ bits y, fetchWord (t.who x) t.pc x = .ok bits y →
                (∀ i, decode bits = some i → runs i y)
                ∧ (decode bits = none → canStop y t = true → answers (trapped y t { code := 1 } t.pc t.pc)))
              ∧ (t.pc.getLsbD 0 = true → canStop x t = true →
                answers (trapped x t { code := 2, addr := t.pc, acc := 3 } t.pc t.pc))
              ∧ ∀ key : Nat → Nat, t.pc.getLsbD 0 = false → s.code = [] →
                let n := lengthOf (x.mem.readN (key 0) 2) / 2
                (∀ j, j < n → locate x (t.who x) (t.pc + BitVec.ofNat 64 (2 * j)) .fetch false = (.at (.mem (key j)), x)) →
                ∀ i, decode ((List.range n).map fun j => x.mem.readN (key j) 2 * 2 ^ (16 * j)).sum = some i → runs i x))))

/-- R145, R343, R432, R458, R468: the package after power-on. No partition is valid, no thread is placed or saved, no version table is
registered and no plan loaded, TIME is 0 and SLEW 600, memory is in its canonical form, and no session or event stands. The model's choices:
every byte that nothing has written reads as zero (log entry 1); PTP is not locked, the package is not in recovery, its firmware is the
empty image and none is stored (log entry 3). -/
def Obligations.ResetState : Prop :=
  let s := State.reset
  MemOk s ∧ (∀ a, s.mem.read a = 0) ∧ s.threads = [] ∧ s.saved = [] ∧ (∀ p ∈ s.parts.toList, p.valid = false ∧ p.bound = false)
    ∧ (∀ k, s.thread? k = none) ∧ s.vtab = none ∧ s.vgiven = [] ∧ s.torn = none ∧ s.tlb = [] ∧ s.code = [] ∧ s.plans = []
    ∧ s.moves = [] ∧ s.chruns = [] ∧ s.chords = [] ∧ s.time = 0 ∧ s.slew = 600
    ∧ s.reports = [] ∧ s.evCount = 0 ∧ s.ptpLocked = false ∧ s.recovery = false
    ∧ s.firmware = [] ∧ s.stored = none ∧ s.doeSession = false ∧ s.mgmtSession = false ∧ ∀ f, (s.facet f).items = [] ∧ (s.facet f).cursor = f

/-- R49, R71, R72, R143: words written out from the encodings of the spec decode to the instructions they stand for; first words of the program
at the end of the chapter on general registers. -/
def Obligations.DecodedWords : Prop :=
  decode 0x00100505 = some (.addi none 4 0 5)
  ∧ decode 0x1018C801 = some (.mul 6 6 8)
  ∧ decode 0x30012A01 = some (.divw 0 9 10) ∧ decode 0x3814EB01 = some (.rem 5 7 11)
  ∧ decode 0x41C8 = some (.cAdd 8 7) ∧ decode 0xFA44 = some (.cAddi 31 9)
  ∧ decode 0x0000691D = some (.lui none 3 9) ∧ decode 0x0084A655 = some (.loopn 1 1 5 6)
  ∧ decode 0x08000065 = some .exit ∧ decode 0x100C0061 = some (.trap 3)
  ∧ decode 0 = none

/-- R47 to R76: decoding the bits that encode a well-formed instruction, with every operand at every value that the encoding admits, gives that
instruction, with the length it is encoded in; and only well-formed instructions are decoded. -/
def Obligations.DecodeInvertsEncode : Prop :=
  (∀ (i : Instr) (c : Code), encode i = some c → i.wellFormed = true → decode c.bits = some i ∧ lengthOf c.bits = c.len)
  ∧ ∀ (w : Nat) (i : Instr), decode w = some i → i.wellFormed = true

/-- Every step keeps memory in its canonical form: the addresses listed rise strictly, and none is listed with what an unlisted one reads as,
so equal memories are equal data. -/
def Obligations.StepsKeepMemoryForm : Prop := Kept MemOk

/-- R438, R439, R446: no step of the machine, in any state, stops: what an instruction may not do is a trap that its thread takes, and a double
trap halts that thread alone. -/
def Obligations.EveryStepGoesOn : Prop := ∀ s : State, ∃ s', step s = .next s'
end

