-- ==== Sys2Proof/Laws/Cells.lean ====
section
/-! SUPPORT. Laws of the sparse store: read after write, frames, and the canonical form. -/

namespace Sys2Proof.Machine
namespace Cells
variable {α : Type}

theorem get_erase_same (d : α) (m : Cells α) (a : Nat) : get d (erase m a) a = d := by
  induction m with
  | nil => rfl
  | cons p r ih =>
    obtain ⟨b, v⟩ := p
    by_cases h : a = b
    · simpa [erase, h] using h ▸ ih
    · simpa [erase, h, get] using ih

theorem get_erase_other (d : α) (m : Cells α) {a b : Nat} (h : b ≠ a) :
    get d (erase m a) b = get d m b := by
  induction m with
  | nil => rfl
  | cons p r ih =>
    obtain ⟨c, v⟩ := p
    by_cases hc : a = c
    · have hb : b ≠ c := hc ▸ h
      simp [erase, hc, get, hb]
      simpa [hc] using ih
    · by_cases hb : b = c <;> simp [erase, hc, get, hb, ih]

theorem get_insert_other (d : α) (m : Cells α) {a b : Nat} (v : α) (h : b ≠ a) :
    get d (insert m a v) b = get d m b := by
  induction m with
  | nil => simp [insert, get, h]
  | cons p r ih =>
    obtain ⟨c, w⟩ := p
    by_cases hc : a < c
    · simp [insert, hc, get, h]
    · by_cases hb : b = c <;> simp [insert, hc, get, hb, ih]

theorem get_insert_erase (d : α) (m : Cells α) (a : Nat) (v : α) :
    get d (insert (erase m a) a v) a = v := by
  induction m with
  | nil => simp [erase, insert, get]
  | cons p r ih =>
    obtain ⟨c, w⟩ := p
    by_cases hc : a = c
    · simpa [erase, hc] using hc ▸ ih
    · by_cases hl : a < c
      · simp [erase, hc, insert, hl, get]
      · simpa [erase, hc, insert, hl, get] using ih

theorem erase_sublist (m : Cells α) (a : Nat) : (erase m a).Sublist m := by
  induction m with
  | nil => exact List.Sublist.refl _
  | cons p r ih =>
    obtain ⟨b, v⟩ := p
    by_cases h : a = b
    · simpa [erase, h] using (h ▸ ih).cons _
    · simpa [erase, h] using ih

theorem erase_no_key (m : Cells α) (a : Nat) : ∀ p ∈ erase m a, p.1 ≠ a := by
  induction m with
  | nil => simp [erase]
  | cons p r ih =>
    obtain ⟨b, v⟩ := p
    by_cases h : a = b
    · intro x hx
      simp only [erase, h, if_true] at hx
      exact h ▸ ih x (h ▸ hx)
    · intro x hx
      simp only [erase, h, if_false, List.mem_cons] at hx
      rcases hx with rfl | hx
      · exact fun e => h e.symm
      · exact ih x hx

theorem mem_insert (m : Cells α) (a : Nat) (v : α) (p : Nat × α) :
    p ∈ insert m a v ↔ p = (a, v) ∨ p ∈ m := by
  induction m with
  | nil => simp [insert]
  | cons q r ih =>
    obtain ⟨b, w⟩ := q
    by_cases h : a < b
    · simp [insert, h]
    · simp only [insert, h, if_false, List.mem_cons, ih]
      tauto

theorem insert_pairwise (m : Cells α) (a : Nat) (v : α)
    (hp : m.Pairwise fun p q => p.1 < q.1) (hk : ∀ p ∈ m, p.1 ≠ a) :
    (insert m a v).Pairwise fun p q => p.1 < q.1 := by
  induction m with
  | nil => simp [insert]
  | cons q r ih =>
    obtain ⟨b, w⟩ := q
    have hc := List.pairwise_cons.1 hp
    by_cases h : a < b
    · simp only [insert, h, if_true]
      refine List.pairwise_cons.2 ⟨?_, hp⟩
      intro x hx
      rcases List.mem_cons.1 hx with rfl | hx
      · exact h
      · exact lt_trans h (hc.1 x hx)
    · simp only [insert, h, if_false]
      have hb : b ≠ a := hk (b, w) (by simp)
      refine List.pairwise_cons.2 ⟨?_, ih hc.2 fun p hp' => hk p (List.mem_cons_of_mem _ hp')⟩
      intro x hx
      rcases (mem_insert r a v x).1 hx with rfl | hx
      · show b < a; omega
      · exact hc.1 x hx

theorem get_clearRange_other (d : α) (m : Cells α) (a n b : Nat) (h : b < a ∨ a + n ≤ b) :
    get d (clearRange m a n) b = get d m b := by
  unfold clearRange
  induction m with
  | nil => rfl
  | cons p r ih =>
    obtain ⟨c, v⟩ := p
    by_cases hc : c < a ∨ a + n ≤ c
    · have : (decide (c < a) || decide (a + n ≤ c)) = true := by simpa using hc
      simp only [List.filter_cons, this, if_true, get]
      by_cases hb : b = c
      · simp [hb]
      · simpa [hb] using ih
    · have hf : (decide (c < a) || decide (a + n ≤ c)) = false := by
        simpa using hc
      have hb : b ≠ c := by rintro rfl; exact hc h
      simp only [List.filter_cons, hf, get, hb, if_false]
      simpa using ih

variable [DecidableEq α]

@[simp] theorem get_set_same (d : α) (m : Cells α) (a : Nat) (v : α) :
    get d (set d m a v) a = v := by
  by_cases h : v = d
  · simpa [set, h] using get_erase_same d m a
  · simpa [set, h] using get_insert_erase d m a v

theorem get_set_other (d : α) (m : Cells α) {a b : Nat} (v : α) (h : b ≠ a) :
    get d (set d m a v) b = get d m b := by
  by_cases hv : v = d
  · simpa [set, hv] using get_erase_other d m h
  · simp only [set, hv, if_false]
    rw [get_insert_other d _ v h, get_erase_other d m h]

/-- Strict order of the keys and absence of the default, as one list property. -/
theorem wf_iff (d : α) (m : Cells α) :
    wf d m = true ↔ (m.Pairwise fun p q => p.1 < q.1) ∧ ∀ p ∈ m, p.2 ≠ d := by
  induction m with
  | nil => simp [wf]
  | cons p r ih =>
    obtain ⟨a, v⟩ := p
    cases r with
    | nil => simp [wf]
    | cons q r =>
      obtain ⟨b, w⟩ := q
      simp only [wf, Bool.and_eq_true, decide_eq_true_eq, ih]
      constructor
      · rintro ⟨⟨hab, hv⟩, hp, hd⟩
        refine ⟨List.pairwise_cons.2 ⟨?_, hp⟩, ?_⟩
        · intro x hx
          rcases List.mem_cons.1 hx with rfl | hx
          · exact hab
          · exact lt_trans hab ((List.pairwise_cons.1 hp).1 x hx)
        · intro x hx
          rcases List.mem_cons.1 hx with rfl | hx
          · exact hv
          · exact hd x hx
      · rintro ⟨hp, hd⟩
        have h := List.pairwise_cons.1 hp
        exact ⟨⟨h.1 (b, w) (by simp), hd (a, v) (by simp)⟩, h.2,
          fun x hx => hd x (List.mem_cons_of_mem _ hx)⟩

theorem wf_set (d : α) (m : Cells α) (a : Nat) (v : α) (h : wf d m = true) :
    wf d (set d m a v) = true := by
  rw [wf_iff] at h ⊢
  have hs := erase_sublist m a
  have hp : (erase m a).Pairwise fun p q => p.1 < q.1 := h.1.sublist hs
  have hd : ∀ p ∈ erase m a, p.2 ≠ d := fun p hp' => h.2 p (hs.subset hp')
  by_cases hv : v = d
  · simp only [set, hv, if_true]
    exact ⟨hp, hd⟩
  · simp only [set, hv, if_false]
    refine ⟨insert_pairwise _ a v hp (erase_no_key m a), ?_⟩
    intro p hp'
    rcases (mem_insert _ a v p).1 hp' with rfl | hp'
    · exact hv
    · exact hd p hp'

theorem wf_setRange (d : α) (m : Cells α) (a : Nat) (vs : List α) (h : wf d m = true) :
    wf d (setRange d m a vs) = true := by
  induction vs generalizing m a with
  | nil => exact h
  | cons v vs ih => exact ih _ _ (wf_set d m a v h)

theorem get_setRange_other (d : α) (m : Cells α) (a b : Nat) (vs : List α)
    (h : b < a ∨ a + vs.length ≤ b) : get d (setRange d m a vs) b = get d m b := by
  induction vs generalizing m a with
  | nil => rfl
  | cons v vs ih =>
    simp only [List.length_cons] at h
    rw [setRange, ih _ _ (by omega), get_set_other d m v (by omega)]

theorem get_setRange_in (d : α) (m : Cells α) (a i : Nat) (vs : List α) (h : i < vs.length) :
    get d (setRange d m a vs) (a + i) = vs[i] := by
  induction vs generalizing m a i with
  | nil => simp at h
  | cons v vs ih =>
    cases i with
    | zero =>
      rw [setRange, get_setRange_other d _ _ _ _ (by omega)]
      simp
    | succ i =>
      have hi : i < vs.length := by simpa using h
      have e : a + (i + 1) = (a + 1) + i := by omega
      rw [setRange, e, ih _ _ _ hi]
      simp

theorem wf_clearRange (d : α) (m : Cells α) (a n : Nat) (h : wf d m = true) :
    wf d (clearRange m a n) = true := by
  rw [wf_iff] at h ⊢
  exact ⟨h.1.sublist List.filter_sublist, fun p hp => h.2 p (List.mem_of_mem_filter hp)⟩

end Cells

namespace Memory
@[simp] theorem read_write_same (m : Memory) (a : Nat) (v : BitVec 8) : (m.write a v).read a = v :=
  Cells.get_set_same _ m a v
theorem read_write_other (m : Memory) {a b : Nat} (v : BitVec 8) (h : b ≠ a) :
    (m.write a v).read b = m.read b := Cells.get_set_other _ m v h
theorem wf_write (m : Memory) (a : Nat) (v : BitVec 8) (h : m.wf = true) : (m.write a v).wf = true :=
  Cells.wf_set _ m a v h
theorem wf_writeBytes (m : Memory) (a : Nat) (bs : List (BitVec 8)) (h : m.wf = true) :
    (m.writeBytes a bs).wf = true := Cells.wf_setRange _ m a bs h
theorem wf_zero (m : Memory) (a n : Nat) (h : m.wf = true) : (m.zero a n).wf = true :=
  Cells.wf_clearRange _ m a n h
theorem read_writeBytes_other (m : Memory) (a b : Nat) (bs : List (BitVec 8))
    (h : b < a ∨ a + bs.length ≤ b) : (m.writeBytes a bs).read b = m.read b :=
  Cells.get_setRange_other _ m a b bs h
end Memory
end Sys2Proof.Machine
end

