-- ==== Sys2Proof/Laws/Exec.lean ====
section
/-! SUPPORT. Each instruction runs its own meaning: one equation per constructor. -/

namespace Sys2Proof.Machine
open Sys2Proof

noncomputable section

variable (s : State)

theorem exec_add (b a d) : exec (.add b a d) s = execAdd b a d s := rfl
theorem exec_sub (b a d) : exec (.sub b a d) s = execSub b a d s := rfl
theorem exec_mul (b a d) : exec (.mul b a d) s = execMul b a d s := rfl
theorem exec_mulh (b a d) : exec (.mulh b a d) s = execMulh b a d s := rfl
theorem exec_mulhw (b a d) : exec (.mulhw b a d) s = execMulhw b a d s := rfl
theorem exec_div (b a d) : exec (.div b a d) s = execDiv b a d s := rfl
theorem exec_divw (b a d) : exec (.divw b a d) s = execDivw b a d s := rfl
theorem exec_rem (b a d) : exec (.rem b a d) s = execRem b a d s := rfl
theorem exec_remw (b a d) : exec (.remw b a d) s = execRemw b a d s := rfl
theorem exec_and (b a d) : exec (.and b a d) s = execAnd b a d s := rfl
theorem exec_or (b a d) : exec (.or b a d) s = execOr b a d s := rfl
theorem exec_xor (b a d) : exec (.xor b a d) s = execXor b a d s := rfl
theorem exec_shl (b a d) : exec (.shl b a d) s = execShl b a d s := rfl
theorem exec_shr (b a d) : exec (.shr b a d) s = execShr b a d s := rfl
theorem exec_sar (b a d) : exec (.sar b a d) s = execSar b a d s := rfl
theorem exec_slt (b a d) : exec (.slt b a d) s = execSlt b a d s := rfl
theorem exec_sltw (b a d) : exec (.sltw b a d) s = execSltw b a d s := rfl
theorem exec_min (b a d) : exec (.min b a d) s = execMin b a d s := rfl
theorem exec_max (b a d) : exec (.max b a d) s = execMax b a d s := rfl
theorem exec_minw (b a d) : exec (.minw b a d) s = execMinw b a d s := rfl
theorem exec_maxw (b a d) : exec (.maxw b a d) s = execMaxw b a d s := rfl
theorem exec_clz (a d) : exec (.clz a d) s = execClz a d s := rfl
theorem exec_ctz (a d) : exec (.ctz a d) s = execCtz a d s := rfl
theorem exec_popc (a d) : exec (.popc a d) s = execPopc a d s := rfl
theorem exec_addi (x im a d) : exec (.addi x im a d) s = execAddi x im a d s := rfl
theorem exec_andi (x im a d) : exec (.andi x im a d) s = execAndi x im a d s := rfl
theorem exec_ori (x im a d) : exec (.ori x im a d) s = execOri x im a d s := rfl
theorem exec_xori (x im a d) : exec (.xori x im a d) s = execXori x im a d s := rfl
theorem exec_slti (x im a d) : exec (.slti x im a d) s = execSlti x im a d s := rfl
theorem exec_shli (n a d) : exec (.shli n a d) s = execShli n a d s := rfl
theorem exec_shri (n a d) : exec (.shri n a d) s = execShri n a d s := rfl
theorem exec_sari (n a d) : exec (.sari n a d) s = execSari n a d s := rfl
theorem exec_lui (x im d) : exec (.lui x im d) s = execLui x im d s := rfl
theorem exec_addpc (x im d) : exec (.addpc x im d) s = execAddpc x im d s := rfl
theorem exec_ld (x im w a d) : exec (.ld x im w a d) s = execLd x im w a d s := rfl
theorem exec_st (x im w b a j) : exec (.st x im w b a j) s = execSt x im w b a j s := rfl
theorem exec_ldAcq (scope w a d) : exec (.ldAcq scope w a d) s = execLdAcq scope w a d s := rfl
theorem exec_stRel (scope w b a) : exec (.stRel scope w b a) s = execStRel scope w b a s := rfl
theorem exec_amoAdd (f b a d) : exec (.amoAdd f b a d) s = execAmoAdd f b a d s := rfl
theorem exec_amoMin (f b a d) : exec (.amoMin f b a d) s = execAmoMin f b a d s := rfl
theorem exec_amoMax (f b a d) : exec (.amoMax f b a d) s = execAmoMax f b a d s := rfl
theorem exec_amoAnd (f b a d) : exec (.amoAnd f b a d) s = execAmoAnd f b a d s := rfl
theorem exec_amoOr (f b a d) : exec (.amoOr f b a d) s = execAmoOr f b a d s := rfl
theorem exec_amoXor (f b a d) : exec (.amoXor f b a d) s = execAmoXor f b a d s := rfl
theorem exec_amoSwap (f b a d) : exec (.amoSwap f b a d) s = execAmoSwap f b a d s := rfl
theorem exec_amoCas (f b a d) : exec (.amoCas f b a d) s = execAmoCas f b a d s := rfl
theorem exec_amox (f b a) : exec (.amox f b a) s = execAmox f b a s := rfl
theorem exec_amoReply (t) : exec (.amoReply t) s = execAmoReply t s := rfl
theorem exec_beq (x im b a j) : exec (.beq x im b a j) s = execBeq x im b a j s := rfl
theorem exec_bne (x im b a j) : exec (.bne x im b a j) s = execBne x im b a j s := rfl
theorem exec_blt (x im b a j) : exec (.blt x im b a j) s = execBlt x im b a j s := rfl
theorem exec_bge (x im b a j) : exec (.bge x im b a j) s = execBge x im b a j s := rfl
theorem exec_bltw (x im b a j) : exec (.bltw x im b a j) s = execBltw x im b a j s := rfl
theorem exec_bgew (x im b a j) : exec (.bgew x im b a j) s = execBgew x im b a j s := rfl
theorem exec_jal (x im d) : exec (.jal x im d) s = execJal x im d s := rfl
theorem exec_jalr (x im a d) : exec (.jalr x im a d) s = execJalr x im a d s := rfl
theorem exec_loopn (scope b a d) : exec (.loopn scope b a d) s = execLoopn scope b a d s := rfl
theorem exec_fadd (r b a d) : exec (.fadd r b a d) s = execFadd r b a d s := rfl
theorem exec_fsub (r b a d) : exec (.fsub r b a d) s = execFsub r b a d s := rfl
theorem exec_fmul (r b a d) : exec (.fmul r b a d) s = execFmul r b a d s := rfl
theorem exec_fdiv (r b a d) : exec (.fdiv r b a d) s = execFdiv r b a d s := rfl
theorem exec_fsqrt (r a d) : exec (.fsqrt r a d) s = execFsqrt r a d s := rfl
theorem exec_fmin (b a d) : exec (.fmin b a d) s = execFmin b a d s := rfl
theorem exec_fmax (b a d) : exec (.fmax b a d) s = execFmax b a d s := rfl
theorem exec_fcmp (c b a d) : exec (.fcmp c b a d) s = execFcmp c b a d s := rfl
theorem exec_fcvt (r b a d) : exec (.fcvt r b a d) s = execFcvt r b a d s := rfl
theorem exec_fclass (a d) : exec (.fclass a d) s = execFclass a d s := rfl
theorem exec_fma (c b a d) : exec (.fma c b a d) s = execFma c b a d s := rfl
theorem exec_mfs (b d) : exec (.mfs b d) s = execMfs b d s := rfl
theorem exec_mts (b a) : exec (.mts b a) s = execMts b a s := rfl
theorem exec_mtsFrm (a) : exec (.mtsFrm a) s = execMtsFrm a s := rfl
theorem exec_mtsFflags (a) : exec (.mtsFflags a) s = execMtsFflags a s := rfl
theorem exec_mtsSat (a) : exec (.mtsSat a) s = execMtsSat a s := rfl
theorem exec_mtsEfc (a) : exec (.mtsEfc a) s = execMtsEfc a s := rfl
theorem exec_mtsTstat (a) : exec (.mtsTstat a) s = execMtsTstat a s := rfl
theorem exec_mtsPrio (a) : exec (.mtsPrio a) s = execMtsPrio a s := rfl
theorem exec_mtsWshare (a) : exec (.mtsWshare a) s = execMtsWshare a s := rfl
theorem exec_mtsAspace (a) : exec (.mtsAspace a) s = execMtsAspace a s := rfl
theorem exec_mtsIshape (a) : exec (.mtsIshape a) s = execMtsIshape a s := rfl
theorem exec_trap (b) : exec (.trap b) s = execTrap b s := rfl
theorem exec_eret : exec (.eret) s = execEret s := rfl
theorem exec_halt : exec (.halt) s = execHalt s := rfl
theorem exec_fence (scope) : exec (.fence scope) s = execFence scope s := rfl
theorem exec_fenceComplete (t) : exec (.fenceComplete t) s = execFenceComplete t s := rfl
theorem exec_iflush (b a) : exec (.iflush b a) s = execIflush b a s := rfl
theorem exec_isync : exec (.isync) s = execIsync s := rfl
theorem exec_isyncComplete (t) : exec (.isyncComplete t) s = execIsyncComplete t s := rfl
theorem exec_tlbinv (b a) : exec (.tlbinv b a) s = execTlbinv b a s := rfl
theorem exec_tlbinvA (a) : exec (.tlbinvA a) s = execTlbinvA a s := rfl
theorem exec_tlbinvComplete (t) : exec (.tlbinvComplete t) s = execTlbinvComplete t s := rfl
theorem exec_spawn (a d) : exec (.spawn a d) s = execSpawn a d s := rfl
theorem exec_exit : exec (.exit) s = execExit s := rfl
theorem exec_join (a d) : exec (.join a d) s = execJoin a d s := rfl
theorem exec_leave (a d) : exec (.leave a d) s = execLeave a d s := rfl
theorem exec_barg (a d) : exec (.barg a d) s = execBarg a d s := rfl
theorem exec_staggeredRelease (t) : exec (.staggeredRelease t) s = execStaggeredRelease t s := rfl
theorem exec_yield (a d) : exec (.yield a d) s = execYield a d s := rfl
theorem exec_wpush (a d) : exec (.wpush a d) s = execWpush a d s := rfl
theorem exec_wpop (d) : exec (.wpop d) s = execWpop d s := rfl
theorem exec_wsteal (a d) : exec (.wsteal a d) s = execWsteal a d s := rfl
theorem exec_claim (b a d) : exec (.claim b a d) s = execClaim b a d s := rfl
theorem exec_waitw (scope b a d) : exec (.waitw scope b a d) s = execWaitw scope b a d s := rfl
theorem exec_waitwWake (t) : exec (.waitwWake t) s = execWaitwWake t s := rfl
theorem exec_waitt (a d) : exec (.waitt a d) s = execWaitt a d s := rfl
theorem exec_waittWake (t) : exec (.waittWake t) s = execWaittWake t s := rfl
theorem exec_vcfg (b a d) : exec (.vcfg b a d) s = execVcfg b a d s := rfl
theorem exec_vcfgVl (d) : exec (.vcfgVl d) s = execVcfgVl d s := rfl
theorem exec_vcfgVtype (d) : exec (.vcfgVtype d) s = execVcfgVtype d s := rfl
theorem exec_vcfgVlmax (d) : exec (.vcfgVlmax d) s = execVcfgVlmax d s := rfl
theorem exec_vcfgVcp (d) : exec (.vcfgVcp d) s = execVcfgVcp d s := rfl
theorem exec_vcfgVstart (d) : exec (.vcfgVstart d) s = execVcfgVstart d s := rfl
theorem exec_vcfgRlen (d) : exec (.vcfgRlen d) s = execVcfgRlen d s := rfl
theorem exec_vcfgi (x im a d) : exec (.vcfgi x im a d) s = execVcfgi x im a d s := rfl
theorem exec_sbind (p n a d) : exec (.sbind p n a d) s = execSbind p n a d s := rfl
theorem exec_sbindQGeneral (p n d) : exec (.sbindQGeneral p n d) s = execSbindQGeneral p n d s := rfl
theorem exec_sbindQVector (p n d) : exec (.sbindQVector p n d) s = execSbindQVector p n d s := rfl
theorem exec_sunbind (p n d) : exec (.sunbind p n d) s = execSunbind p n d s := rfl
theorem exec_sunbindQ (p n d) : exec (.sunbindQ p n d) s = execSunbindQ p n d s := rfl
theorem exec_sskip (p n a) : exec (.sskip p n a) s = execSskip p n a s := rfl
theorem exec_spos (p n d) : exec (.spos p n d) s = execSpos p n d s := rfl
theorem exec_stbar (p scope) : exec (.stbar p scope) s = execStbar p scope s := rfl
theorem exec_stbarComplete (t) : exec (.stbarComplete t) s = execStbarComplete t s := rfl
theorem exec_waitc (p a d) : exec (.waitc p a d) s = execWaitc p a d s := rfl
theorem exec_waitcWake (t) : exec (.waitcWake t) s = execWaitcWake t s := rfl
theorem exec_bset (p b a d) : exec (.bset p b a d) s = execBset p b a d s := rfl
theorem exec_tcfg (p b a) : exec (.tcfg p b a) s = execTcfg p b a s := rfl
theorem exec_chwait (p d) : exec (.chwait p d) s = execChwait p d s := rfl
theorem exec_chwaitWake (t) : exec (.chwaitWake t) s = execChwaitWake t s := rfl
theorem exec_nset (p a d) : exec (.nset p a d) s = execNset p a d s := rfl
theorem exec_nsetF (p b a d) : exec (.nsetF p b a d) s = execNsetF p b a d s := rfl
theorem exec_nsig (p a d) : exec (.nsig p a d) s = execNsig p a d s := rfl
theorem exec_nsigRank (p a d) : exec (.nsigRank p a d) s = execNsigRank p a d s := rfl
theorem exec_nsigCount (p a d) : exec (.nsigCount p a d) s = execNsigCount p a d s := rfl
theorem exec_nsigSeq (p a d) : exec (.nsigSeq p a d) s = execNsigSeq p a d s := rfl
theorem exec_tmapset (a d) : exec (.tmapset a d) s = execTmapset a d s := rfl
theorem exec_tfetch (a d) : exec (.tfetch a d) s = execTfetch a d s := rfl
theorem exec_tevict (a d) : exec (.tevict a d) s = execTevict a d s := rfl
theorem exec_tlog (scope b a d) : exec (.tlog scope b a d) s = execTlog scope b a d s := rfl
theorem exec_tcompact (a d) : exec (.tcompact a d) s = execTcompact a d s := rfl
theorem exec_tstat (a d) : exec (.tstat a d) s = execTstat a d s := rfl
theorem exec_vpubl (a d) : exec (.vpubl a d) s = execVpubl a d s := rfl
theorem exec_vpublWait (a d) : exec (.vpublWait a d) s = execVpublWait a d s := rfl
theorem exec_vpublAt (b a d) : exec (.vpublAt b a d) s = execVpublAt b a d s := rfl
theorem exec_vpublWaitAt (b a d) : exec (.vpublWaitAt b a d) s = execVpublWaitAt b a d s := rfl
theorem exec_vpublWaitResume (t) : exec (.vpublWaitResume t) s = execVpublWaitResume t s := rfl
theorem exec_toksw (a d) : exec (.toksw a d) s = execToksw a d s := rfl
theorem exec_tokswMin (b a d) : exec (.tokswMin b a d) s = execTokswMin b a d s := rfl
theorem exec_tokswMinResume (t) : exec (.tokswMinResume t) s = execTokswMinResume t s := rfl
theorem exec_versionPinRelease (part n) : exec (.versionPinRelease part n) s = execVersionPinRelease part n s := rfl
theorem exec_sttok (b a) : exec (.sttok b a) s = execSttok b a s := rfl
theorem exec_vpin (a d) : exec (.vpin a d) s = execVpin a d s := rfl
theorem exec_vunpin (a d) : exec (.vunpin a d) s = execVunpin a d s := rfl
theorem exec_hint (x) : exec (.hint x) s = execHint x s := rfl
theorem exec_cHint (x) : exec (.cHint x) s = execCHint x s := rfl
theorem exec_cAddi (x d) : exec (.cAddi x d) s = execCAddi x d s := rfl
theorem exec_cAdd (x d) : exec (.cAdd x d) s = execCAdd x d s := rfl
theorem exec_cSub (x d) : exec (.cSub x d) s = execCSub x d s := rfl
theorem exec_cAnd (x d) : exec (.cAnd x d) s = execCAnd x d s := rfl
theorem exec_cOr (x d) : exec (.cOr x d) s = execCOr x d s := rfl
theorem exec_cXor (x d) : exec (.cXor x d) s = execCXor x d s := rfl
theorem exec_cShli (x d) : exec (.cShli x d) s = execCShli x d s := rfl
theorem exec_cShri (x d) : exec (.cShri x d) s = execCShri x d s := rfl
theorem exec_cSari (x d) : exec (.cSari x d) s = execCSari x d s := rfl
theorem exec_cLdI64 (x d) : exec (.cLdI64 x d) s = execCLdI64 x d s := rfl
theorem exec_cStI64 (x d) : exec (.cStI64 x d) s = execCStI64 x d s := rfl
theorem exec_cBeq (x d) : exec (.cBeq x d) s = execCBeq x d s := rfl
theorem exec_cBne (x d) : exec (.cBne x d) s = execCBne x d s := rfl
theorem exec_cJr (d) : exec (.cJr d) s = execCJr d s := rfl
theorem exec_cJalr (d) : exec (.cJalr d) s = execCJalr d s := rfl
theorem exec_cMv (x d) : exec (.cMv x d) s = execCMv x d s := rfl
theorem exec_cvVaddI32 (b d) : exec (.cvVaddI32 b d) s = execCvVaddI32 b d s := rfl
theorem exec_cvVsubI32 (b d) : exec (.cvVsubI32 b d) s = execCvVsubI32 b d s := rfl
theorem exec_cvVmulI32 (b d) : exec (.cvVmulI32 b d) s = execCvVmulI32 b d s := rfl
theorem exec_cvVmaccI32 (b d) : exec (.cvVmaccI32 b d) s = execCvVmaccI32 b d s := rfl
theorem exec_cvVmaxI32 (b d) : exec (.cvVmaxI32 b d) s = execCvVmaxI32 b d s := rfl
theorem exec_cvVxorI32 (b d) : exec (.cvVxorI32 b d) s = execCvVxorI32 b d s := rfl
theorem exec_cvVfaddF32 (b d) : exec (.cvVfaddF32 b d) s = execCvVfaddF32 b d s := rfl
theorem exec_cvVfmulF32 (b d) : exec (.cvVfmulF32 b d) s = execCvVfmulF32 b d s := rfl
theorem exec_cvVfmaF32 (b d) : exec (.cvVfmaF32 b d) s = execCvVfmaF32 b d s := rfl
theorem exec_cvVfmaxF32 (b d) : exec (.cvVfmaxF32 b d) s = execCvVfmaxF32 b d s := rfl
theorem exec_cvVfaddBf16 (b d) : exec (.cvVfaddBf16 b d) s = execCvVfaddBf16 b d s := rfl
theorem exec_cvVfmulBf16 (b d) : exec (.cvVfmulBf16 b d) s = execCvVfmulBf16 b d s := rfl
theorem exec_cvVfmaBf16 (b d) : exec (.cvVfmaBf16 b d) s = execCvVfmaBf16 b d s := rfl
theorem exec_cvVfmaxBf16 (b d) : exec (.cvVfmaxBf16 b d) s = execCvVfmaxBf16 b d s := rfl
theorem exec_vaddVv (o) : exec (.vaddVv o) s = execVaddVv o s := rfl
theorem exec_vaddVg (o) : exec (.vaddVg o) s = execVaddVg o s := rfl
theorem exec_vaddVi (o) : exec (.vaddVi o) s = execVaddVi o s := rfl
theorem exec_vsubVv (o) : exec (.vsubVv o) s = execVsubVv o s := rfl
theorem exec_vsubVg (o) : exec (.vsubVg o) s = execVsubVg o s := rfl
theorem exec_vrsubVg (o) : exec (.vrsubVg o) s = execVrsubVg o s := rfl
theorem exec_vrsubVi (o) : exec (.vrsubVi o) s = execVrsubVi o s := rfl
theorem exec_vmulVv (o) : exec (.vmulVv o) s = execVmulVv o s := rfl
theorem exec_vmulVg (o) : exec (.vmulVg o) s = execVmulVg o s := rfl
theorem exec_vmulhVv (o) : exec (.vmulhVv o) s = execVmulhVv o s := rfl
theorem exec_vmulhVg (o) : exec (.vmulhVg o) s = execVmulhVg o s := rfl
theorem exec_vmaccVv (o) : exec (.vmaccVv o) s = execVmaccVv o s := rfl
theorem exec_vmaccVg (o) : exec (.vmaccVg o) s = execVmaccVg o s := rfl
theorem exec_vnmsacVv (o) : exec (.vnmsacVv o) s = execVnmsacVv o s := rfl
theorem exec_vnmsacVg (o) : exec (.vnmsacVg o) s = execVnmsacVg o s := rfl
theorem exec_vwaddVv (o) : exec (.vwaddVv o) s = execVwaddVv o s := rfl
theorem exec_vwaddVg (o) : exec (.vwaddVg o) s = execVwaddVg o s := rfl
theorem exec_vwmulVv (o) : exec (.vwmulVv o) s = execVwmulVv o s := rfl
theorem exec_vwmulVg (o) : exec (.vwmulVg o) s = execVwmulVg o s := rfl
theorem exec_vwmaccVv (o) : exec (.vwmaccVv o) s = execVwmaccVv o s := rfl
theorem exec_vwmaccVg (o) : exec (.vwmaccVg o) s = execVwmaccVg o s := rfl
theorem exec_vnshrVv (o) : exec (.vnshrVv o) s = execVnshrVv o s := rfl
theorem exec_vnshrVg (o) : exec (.vnshrVg o) s = execVnshrVg o s := rfl
theorem exec_vnshrVi (o) : exec (.vnshrVi o) s = execVnshrVi o s := rfl
theorem exec_vsaddVv (o) : exec (.vsaddVv o) s = execVsaddVv o s := rfl
theorem exec_vsaddVg (o) : exec (.vsaddVg o) s = execVsaddVg o s := rfl
theorem exec_vsaddVi (o) : exec (.vsaddVi o) s = execVsaddVi o s := rfl
theorem exec_vssubVv (o) : exec (.vssubVv o) s = execVssubVv o s := rfl
theorem exec_vssubVg (o) : exec (.vssubVg o) s = execVssubVg o s := rfl
theorem exec_vavgVv (o) : exec (.vavgVv o) s = execVavgVv o s := rfl
theorem exec_vavgVg (o) : exec (.vavgVg o) s = execVavgVg o s := rfl
theorem exec_vminVv (o) : exec (.vminVv o) s = execVminVv o s := rfl
theorem exec_vminVg (o) : exec (.vminVg o) s = execVminVg o s := rfl
theorem exec_vmaxVv (o) : exec (.vmaxVv o) s = execVmaxVv o s := rfl
theorem exec_vmaxVg (o) : exec (.vmaxVg o) s = execVmaxVg o s := rfl
theorem exec_vandVv (o) : exec (.vandVv o) s = execVandVv o s := rfl
theorem exec_vandVg (o) : exec (.vandVg o) s = execVandVg o s := rfl
theorem exec_vandVi (o) : exec (.vandVi o) s = execVandVi o s := rfl
theorem exec_vorVv (o) : exec (.vorVv o) s = execVorVv o s := rfl
theorem exec_vorVg (o) : exec (.vorVg o) s = execVorVg o s := rfl
theorem exec_vorVi (o) : exec (.vorVi o) s = execVorVi o s := rfl
theorem exec_vxorVv (o) : exec (.vxorVv o) s = execVxorVv o s := rfl
theorem exec_vxorVg (o) : exec (.vxorVg o) s = execVxorVg o s := rfl
theorem exec_vxorVi (o) : exec (.vxorVi o) s = execVxorVi o s := rfl
theorem exec_vshlVv (o) : exec (.vshlVv o) s = execVshlVv o s := rfl
theorem exec_vshlVg (o) : exec (.vshlVg o) s = execVshlVg o s := rfl
theorem exec_vshlVi (o) : exec (.vshlVi o) s = execVshlVi o s := rfl
theorem exec_vshrVv (o) : exec (.vshrVv o) s = execVshrVv o s := rfl
theorem exec_vshrVg (o) : exec (.vshrVg o) s = execVshrVg o s := rfl
theorem exec_vshrVi (o) : exec (.vshrVi o) s = execVshrVi o s := rfl
theorem exec_vsarVv (o) : exec (.vsarVv o) s = execVsarVv o s := rfl
theorem exec_vsarVg (o) : exec (.vsarVg o) s = execVsarVg o s := rfl
theorem exec_vsarVi (o) : exec (.vsarVi o) s = execVsarVi o s := rfl
theorem exec_vmergeVv (o) : exec (.vmergeVv o) s = execVmergeVv o s := rfl
theorem exec_vmergeVg (o) : exec (.vmergeVg o) s = execVmergeVg o s := rfl
theorem exec_vmergeVi (o) : exec (.vmergeVi o) s = execVmergeVi o s := rfl
theorem exec_vmvVv (o) : exec (.vmvVv o) s = execVmvVv o s := rfl
theorem exec_vmvVg (o) : exec (.vmvVg o) s = execVmvVg o s := rfl
theorem exec_vmvVi (o) : exec (.vmvVi o) s = execVmvVi o s := rfl
theorem exec_vcmpEqVv (o) : exec (.vcmpEqVv o) s = execVcmpEqVv o s := rfl
theorem exec_vcmpEqVg (o) : exec (.vcmpEqVg o) s = execVcmpEqVg o s := rfl
theorem exec_vcmpEqVi (o) : exec (.vcmpEqVi o) s = execVcmpEqVi o s := rfl
theorem exec_vcmpNeVv (o) : exec (.vcmpNeVv o) s = execVcmpNeVv o s := rfl
theorem exec_vcmpNeVg (o) : exec (.vcmpNeVg o) s = execVcmpNeVg o s := rfl
theorem exec_vcmpNeVi (o) : exec (.vcmpNeVi o) s = execVcmpNeVi o s := rfl
theorem exec_vcmpLtVv (o) : exec (.vcmpLtVv o) s = execVcmpLtVv o s := rfl
theorem exec_vcmpLtVg (o) : exec (.vcmpLtVg o) s = execVcmpLtVg o s := rfl
theorem exec_vcmpLtVi (o) : exec (.vcmpLtVi o) s = execVcmpLtVi o s := rfl
theorem exec_vcmpLeVv (o) : exec (.vcmpLeVv o) s = execVcmpLeVv o s := rfl
theorem exec_vcmpLeVg (o) : exec (.vcmpLeVg o) s = execVcmpLeVg o s := rfl
theorem exec_vcmpLeVi (o) : exec (.vcmpLeVi o) s = execVcmpLeVi o s := rfl
theorem exec_vcmpGtVv (o) : exec (.vcmpGtVv o) s = execVcmpGtVv o s := rfl
theorem exec_vcmpGtVg (o) : exec (.vcmpGtVg o) s = execVcmpGtVg o s := rfl
theorem exec_vcmpGtVi (o) : exec (.vcmpGtVi o) s = execVcmpGtVi o s := rfl
theorem exec_vcmpGeVv (o) : exec (.vcmpGeVv o) s = execVcmpGeVv o s := rfl
theorem exec_vcmpGeVg (o) : exec (.vcmpGeVg o) s = execVcmpGeVg o s := rfl
theorem exec_vcmpGeVi (o) : exec (.vcmpGeVi o) s = execVcmpGeVi o s := rfl
theorem exec_vfaddVv (o) : exec (.vfaddVv o) s = execVfaddVv o s := rfl
theorem exec_vfaddVg (o) : exec (.vfaddVg o) s = execVfaddVg o s := rfl
theorem exec_vfsubVv (o) : exec (.vfsubVv o) s = execVfsubVv o s := rfl
theorem exec_vfsubVg (o) : exec (.vfsubVg o) s = execVfsubVg o s := rfl
theorem exec_vfmulVv (o) : exec (.vfmulVv o) s = execVfmulVv o s := rfl
theorem exec_vfmulVg (o) : exec (.vfmulVg o) s = execVfmulVg o s := rfl
theorem exec_vfmaVv (o) : exec (.vfmaVv o) s = execVfmaVv o s := rfl
theorem exec_vfmaVg (o) : exec (.vfmaVg o) s = execVfmaVg o s := rfl
theorem exec_vfnmaVv (o) : exec (.vfnmaVv o) s = execVfnmaVv o s := rfl
theorem exec_vfnmaVg (o) : exec (.vfnmaVg o) s = execVfnmaVg o s := rfl
theorem exec_vfdivVv (o) : exec (.vfdivVv o) s = execVfdivVv o s := rfl
theorem exec_vfdivVg (o) : exec (.vfdivVg o) s = execVfdivVg o s := rfl
theorem exec_vfsqrt (o) : exec (.vfsqrt o) s = execVfsqrt o s := rfl
theorem exec_vfminVv (o) : exec (.vfminVv o) s = execVfminVv o s := rfl
theorem exec_vfminVg (o) : exec (.vfminVg o) s = execVfminVg o s := rfl
theorem exec_vfmaxVv (o) : exec (.vfmaxVv o) s = execVfmaxVv o s := rfl
theorem exec_vfmaxVg (o) : exec (.vfmaxVg o) s = execVfmaxVg o s := rfl
theorem exec_vfcmpEqVv (o) : exec (.vfcmpEqVv o) s = execVfcmpEqVv o s := rfl
theorem exec_vfcmpEqVg (o) : exec (.vfcmpEqVg o) s = execVfcmpEqVg o s := rfl
theorem exec_vfcmpNeVv (o) : exec (.vfcmpNeVv o) s = execVfcmpNeVv o s := rfl
theorem exec_vfcmpNeVg (o) : exec (.vfcmpNeVg o) s = execVfcmpNeVg o s := rfl
theorem exec_vfcmpLtVv (o) : exec (.vfcmpLtVv o) s = execVfcmpLtVv o s := rfl
theorem exec_vfcmpLtVg (o) : exec (.vfcmpLtVg o) s = execVfcmpLtVg o s := rfl
theorem exec_vfcmpLeVv (o) : exec (.vfcmpLeVv o) s = execVfcmpLeVv o s := rfl
theorem exec_vfcmpLeVg (o) : exec (.vfcmpLeVg o) s = execVfcmpLeVg o s := rfl
theorem exec_vfcmpGtVv (o) : exec (.vfcmpGtVv o) s = execVfcmpGtVv o s := rfl
theorem exec_vfcmpGtVg (o) : exec (.vfcmpGtVg o) s = execVfcmpGtVg o s := rfl
theorem exec_vfcmpGeVv (o) : exec (.vfcmpGeVv o) s = execVfcmpGeVv o s := rfl
theorem exec_vfcmpGeVg (o) : exec (.vfcmpGeVg o) s = execVfcmpGeVg o s := rfl
theorem exec_vfcmpUnVv (o) : exec (.vfcmpUnVv o) s = execVfcmpUnVv o s := rfl
theorem exec_vfcmpUnVg (o) : exec (.vfcmpUnVg o) s = execVfcmpUnVg o s := rfl
theorem exec_mand (o) : exec (.mand o) s = execMand o s := rfl
theorem exec_mor (o) : exec (.mor o) s = execMor o s := rfl
theorem exec_mxor (o) : exec (.mxor o) s = execMxor o s := rfl
theorem exec_mnot (o) : exec (.mnot o) s = execMnot o s := rfl
theorem exec_mpopc (o) : exec (.mpopc o) s = execMpopc o s := rfl
theorem exec_mffs (o) : exec (.mffs o) s = execMffs o s := rfl
theorem exec_mset (o) : exec (.mset o) s = execMset o s := rfl
theorem exec_vreconf (o) : exec (.vreconf o) s = execVreconf o s := rfl
theorem exec_vslideu (o) : exec (.vslideu o) s = execVslideu o s := rfl
theorem exec_vslided (o) : exec (.vslided o) s = execVslided o s := rfl
theorem exec_vgather (o) : exec (.vgather o) s = execVgather o s := rfl
theorem exec_vcompress (o) : exec (.vcompress o) s = execVcompress o s := rfl
theorem exec_viota (o) : exec (.viota o) s = execViota o s := rfl
theorem exec_vext (o) : exec (.vext o) s = execVext o s := rfl
theorem exec_vins (o) : exec (.vins o) s = execVins o s := rfl
theorem exec_vredsum (o) : exec (.vredsum o) s = execVredsum o s := rfl
theorem exec_vredmax (o) : exec (.vredmax o) s = execVredmax o s := rfl
theorem exec_vredmin (o) : exec (.vredmin o) s = execVredmin o s := rfl
theorem exec_vfredsum (o) : exec (.vfredsum o) s = execVfredsum o s := rfl
theorem exec_vfredmax (o) : exec (.vfredmax o) s = execVfredmax o s := rfl
theorem exec_vfredmin (o) : exec (.vfredmin o) s = execVfredmin o s := rfl
theorem exec_vfredms (o) : exec (.vfredms o) s = execVfredms o s := rfl
theorem exec_vfcvt (o) : exec (.vfcvt o) s = execVfcvt o s := rfl
theorem exec_vfcvtEf (o) : exec (.vfcvtEf o) s = execVfcvtEf o s := rfl
theorem exec_vrec (o) : exec (.vrec o) s = execVrec o s := rfl
theorem exec_vendrec (o) : exec (.vendrec o) s = execVendrec o s := rfl
theorem exec_vreplay (o) : exec (.vreplay o) s = execVreplay o s := rfl
theorem exec_aalloc (o) : exec (.aalloc o) s = execAalloc o s := rfl
theorem exec_aallocWait (o) : exec (.aallocWait o) s = execAallocWait o s := rfl
theorem exec_aallocWaitBind (facet) : exec (.aallocWaitBind facet) s = execAallocWaitBind facet s := rfl
theorem exec_afree (o) : exec (.afree o) s = execAfree o s := rfl
theorem exec_aclr (o) : exec (.aclr o) s = execAclr o s := rfl
theorem exec_ldws (o) : exec (.ldws o) s = execLdws o s := rfl
theorem exec_swpl (o) : exec (.swpl o) s = execSwpl o s := rfl
theorem exec_mstream (o) : exec (.mstream o) s = execMstream o s := rfl
theorem exec_mopa (o) : exec (.mopa o) s = execMopa o s := rfl
theorem exec_mops (o) : exec (.mops o) s = execMops o s := rfl
theorem exec_axtr (o) : exec (.axtr o) s = execAxtr o s := rfl
theorem exec_axtc (o) : exec (.axtc o) s = execAxtc o s := rfl
theorem exec_asave (o) : exec (.asave o) s = execAsave o s := rfl
theorem exec_aload (o) : exec (.aload o) s = execAload o s := rfl
theorem exec_aaddi (o) : exec (.aaddi o) s = execAaddi o s := rfl
theorem exec_trow (o) : exec (.trow o) s = execTrow o s := rfl
theorem exec_tcol (o) : exec (.tcol o) s = execTcol o s := rfl
theorem exec_tld (o) : exec (.tld o) s = execTld o s := rfl
theorem exec_tst (o) : exec (.tst o) s = execTst o s := rfl
theorem exec_vld (o) : exec (.vld o) s = execVld o s := rfl
theorem exec_vlds (o) : exec (.vlds o) s = execVlds o s := rfl
theorem exec_vldx (o) : exec (.vldx o) s = execVldx o s := rfl
theorem exec_vldseg (o) : exec (.vldseg o) s = execVldseg o s := rfl
theorem exec_vldff (o) : exec (.vldff o) s = execVldff o s := rfl
theorem exec_cbld (o) : exec (.cbld o) s = execCbld o s := rfl
theorem exec_vfill (o) : exec (.vfill o) s = execVfill o s := rfl
theorem exec_vst (o) : exec (.vst o) s = execVst o s := rfl
theorem exec_vsts (o) : exec (.vsts o) s = execVsts o s := rfl
theorem exec_vstx (o) : exec (.vstx o) s = execVstx o s := rfl
theorem exec_vstseg (o) : exec (.vstseg o) s = execVstseg o s := rfl
theorem exec_vspill (o) : exec (.vspill o) s = execVspill o s := rfl
theorem exec_ldpSum (o) : exec (.ldpSum o) s = execLdpSum o s := rfl
theorem exec_ldpMax (o) : exec (.ldpMax o) s = execLdpMax o s := rfl
theorem exec_ldpMin (o) : exec (.ldpMin o) s = execLdpMin o s := rfl
theorem exec_ldpMaxsum (o) : exec (.ldpMaxsum o) s = execLdpMaxsum o s := rfl
theorem exec_ldpAnd (o) : exec (.ldpAnd o) s = execLdpAnd o s := rfl
theorem exec_ldpOr (o) : exec (.ldpOr o) s = execLdpOr o s := rfl
theorem exec_ldpXor (o) : exec (.ldpXor o) s = execLdpXor o s := rfl
theorem exec_ldpFirst (o) : exec (.ldpFirst o) s = execLdpFirst o s := rfl
theorem exec_stp (o) : exec (.stp o) s = execStp o s := rfl
theorem exec_chrun (o) : exec (.chrun o) s = execChrun o s := rfl
theorem exec_chordCommandPlace (bank) : exec (.chordCommandPlace bank) s = execChordCommandPlace bank s := rfl
theorem exec_chordRunStart (bank) : exec (.chordRunStart bank) s = execChordRunStart bank s := rfl
theorem exec_chordRunEnd (bank) : exec (.chordRunEnd bank) s = execChordRunEnd bank s := rfl
theorem exec_vamoAdd (o) : exec (.vamoAdd o) s = execVamoAdd o s := rfl
theorem exec_vamoMin (o) : exec (.vamoMin o) s = execVamoMin o s := rfl
theorem exec_vamoMax (o) : exec (.vamoMax o) s = execVamoMax o s := rfl
theorem exec_vamoAnd (o) : exec (.vamoAnd o) s = execVamoAnd o s := rfl
theorem exec_vamoOr (o) : exec (.vamoOr o) s = execVamoOr o s := rfl
theorem exec_vamoXor (o) : exec (.vamoXor o) s = execVamoXor o s := rfl
theorem exec_vamoSwap (o) : exec (.vamoSwap o) s = execVamoSwap o s := rfl
theorem exec_vamoCas (o) : exec (.vamoCas o) s = execVamoCas o s := rfl
theorem exec_vamooAdd (o) : exec (.vamooAdd o) s = execVamooAdd o s := rfl
theorem exec_vamooMin (o) : exec (.vamooMin o) s = execVamooMin o s := rfl
theorem exec_vamooMax (o) : exec (.vamooMax o) s = execVamooMax o s := rfl
theorem exec_vamooAnd (o) : exec (.vamooAnd o) s = execVamooAnd o s := rfl
theorem exec_vamooOr (o) : exec (.vamooOr o) s = execVamooOr o s := rfl
theorem exec_vamooXor (o) : exec (.vamooXor o) s = execVamooXor o s := rfl
theorem exec_vamooSwap (o) : exec (.vamooSwap o) s = execVamooSwap o s := rfl
theorem exec_vamooCas (o) : exec (.vamooCas o) s = execVamooCas o s := rfl
theorem exec_tmov (o) : exec (.tmov o) s = execTmov o s := rfl
theorem exec_tmovComplete (id) : exec (.tmovComplete id) s = execTmovComplete id s := rfl
theorem exec_tokp (o) : exec (.tokp o) s = execTokp o s := rfl
theorem exec_tokw (o) : exec (.tokw o) s = execTokw o s := rfl
theorem exec_vfence (o) : exec (.vfence o) s = execVfence o s := rfl
theorem exec_vfenceD (o) : exec (.vfenceD o) s = execVfenceD o s := rfl
theorem exec_vcoll (o) : exec (.vcoll o) s = execVcoll o s := rfl
theorem exec_collectiveChunkArrival (c) : exec (.collectiveChunkArrival c) s = execCollectiveChunkArrival c s := rfl
theorem exec_collectiveGo (t) : exec (.collectiveGo t) s = execCollectiveGo t s := rfl
theorem exec_collectiveAbort (t) : exec (.collectiveAbort t) s = execCollectiveAbort t s := rfl
theorem exec_vsend (o) : exec (.vsend o) s = execVsend o s := rfl
theorem exec_vrecv (o) : exec (.vrecv o) s = execVrecv o s := rfl
theorem exec_messageArrival (m) : exec (.messageArrival m) s = execMessageArrival m s := rfl
theorem exec_endpointChunkSend (facet) : exec (.endpointChunkSend facet) s = execEndpointChunkSend facet s := rfl
theorem exec_slotFreeNotice (h) : exec (.slotFreeNotice h) s = execSlotFreeNotice h s := rfl
theorem exec_fabricErrorTimeout (t port) : exec (.fabricErrorTimeout t port) s = execFabricErrorTimeout t port s := rfl
theorem exec_linkFlitRetry (port) : exec (.linkFlitRetry port) s = execLinkFlitRetry port s := rfl
theorem exec_entryStart (t) : exec (.entryStart t) s = execEntryStart t s := rfl
theorem exec_entryCommit (t) : exec (.entryCommit t) s = execEntryCommit t s := rfl
theorem exec_vectorQueuePushResume (t) : exec (.vectorQueuePushResume t) s = execVectorQueuePushResume t s := rfl
theorem exec_queueRegisterResume (t q) : exec (.queueRegisterResume t q) s = execQueueRegisterResume t q s := rfl
theorem exec_streamStripRead (t n) : exec (.streamStripRead t n) s = execStreamStripRead t n s := rfl
theorem exec_writeStreamStore (t) : exec (.writeStreamStore t) s = execWriteStreamStore t s := rfl
theorem exec_tileLogCompaction (part win tile) : exec (.tileLogCompaction part win tile) s = execTileLogCompaction part win tile s := rfl
theorem exec_tileArrival (part win tile) : exec (.tileArrival part win tile) s = execTileArrival part win tile s := rfl
theorem exec_tileLeave (part win tile) : exec (.tileLeave part win tile) s = execTileLeave part win tile s := rfl
theorem exec_combineDrain (t) : exec (.combineDrain t) s = execCombineDrain t s := rfl
theorem exec_slotPlacement (part slot) : exec (.slotPlacement part slot) s = execSlotPlacement part slot s := rfl
theorem exec_preemption (t) : exec (.preemption t) s = execPreemption t s := rfl
theorem exec_contextSaveDone (t) : exec (.contextSaveDone t) s = execContextSaveDone t s := rfl
theorem exec_lmaxExpiry (bank) : exec (.lmaxExpiry bank) s = execLmaxExpiry bank s := rfl
theorem exec_latticeIdleTimeout (part) : exec (.latticeIdleTimeout part) s = execLatticeIdleTimeout part s := rfl
theorem exec_storageErrorDetected (k) : exec (.storageErrorDetected k) s = execStorageErrorDetected k s := rfl
theorem exec_hostMemAccess (write addr data) : exec (.hostMemAccess write addr data) s = execHostMemAccess write addr data s := rfl
theorem exec_powerOnReset (b) : exec (.powerOnReset b) s = execPowerOnReset b s := rfl
theorem exec_expanderLost (port) : exec (.expanderLost port) s = execExpanderLost port s := rfl
theorem exec_fuondLinkFailed (port) : exec (.fuondLinkFailed port) s = execFuondLinkFailed port s := rfl
theorem exec_ptpMessage (m) : exec (.ptpMessage m) s = execPtpMessage m s := rfl
theorem exec_ptpLockLost : exec (.ptpLockLost) s = execPtpLockLost s := rfl
theorem exec_ident (ch) : exec (.ident ch) s = execIdent ch s := rfl
theorem exec_partset (ch) : exec (.partset ch) s = execPartset ch s := rfl
theorem exec_lmax (ch) : exec (.lmax ch) s = execLmax ch s := rfl
theorem exec_vtabRegister (ch) : exec (.vtabRegister ch) s = execVtabRegister ch s := rfl
theorem exec_vtabRemove (ch) : exec (.vtabRemove ch) s = execVtabRemove ch s := rfl
theorem exec_planld (ch) : exec (.planld ch) s = execPlanld ch s := rfl
theorem exec_planfr (ch) : exec (.planfr ch) s = execPlanfr ch s := rfl
theorem exec_slew (ch) : exec (.slew ch) s = execSlew ch s := rfl
theorem exec_pkgid (ch) : exec (.pkgid ch) s = execPkgid ch s := rfl
theorem exec_dbgAttach (ch) : exec (.dbgAttach ch) s = execDbgAttach ch s := rfl
theorem exec_dbgDetach (ch) : exec (.dbgDetach ch) s = execDbgDetach ch s := rfl
theorem exec_dbgResume (ch) : exec (.dbgResume ch) s = execDbgResume ch s := rfl
theorem exec_dbgSave (ch) : exec (.dbgSave ch) s = execDbgSave ch s := rfl
theorem exec_dbgRestore (ch) : exec (.dbgRestore ch) s = execDbgRestore ch s := rfl
theorem exec_status (ch) : exec (.status ch) s = execStatus ch s := rfl
theorem exec_fwupd (ch) : exec (.fwupd ch) s = execFwupd ch s := rfl
theorem exec_softc (ch) : exec (.softc ch) s = execSoftc ch s := rfl
theorem exec_launch (ch) : exec (.launch ch) s = execLaunch ch s := rfl
theorem exec_memcap (ch) : exec (.memcap ch) s = execMemcap ch s := rfl
theorem exec_unknownCommand (ch) : exec (.unknownCommand ch) s = execUnknownCommand ch s := rfl
theorem exec_getVersion (w) : exec (.getVersion w) s = execGetVersion w s := rfl
theorem exec_getCapabilities (w) : exec (.getCapabilities w) s = execGetCapabilities w s := rfl
theorem exec_negotiateAlgorithms (w) : exec (.negotiateAlgorithms w) s = execNegotiateAlgorithms w s := rfl
theorem exec_getDigests (w) : exec (.getDigests w) s = execGetDigests w s := rfl
theorem exec_getCertificate (w) : exec (.getCertificate w) s = execGetCertificate w s := rfl
theorem exec_challenge (w) : exec (.challenge w) s = execChallenge w s := rfl
theorem exec_getMeasurements (w) : exec (.getMeasurements w) s = execGetMeasurements w s := rfl
theorem exec_securedSession (w) : exec (.securedSession w) s = execSecuredSession w s := rfl
theorem exec_hdmDecoderWrite (base) : exec (.hdmDecoderWrite base) s = execHdmDecoderWrite base s := rfl
theorem exec_confirmationReportArrival (r) : exec (.confirmationReportArrival r) s = execConfirmationReportArrival r s := rfl
theorem exec_linkRetrain (port) : exec (.linkRetrain port) s = execLinkRetrain port s := rfl
theorem exec_syncInterval (port) : exec (.syncInterval port) s = execSyncInterval port s := rfl

end
end Sys2Proof.Machine
end

