-- ==== Sys2Proof/Laws/State.lean ====
section
/-! SUPPORT. What the updates of the state leave alone: one lemma per field and update, and what reading back gives. -/

namespace Sys2Proof.Machine
open Sys2Proof

@[simp] theorem State.setThread_mem (s : State) (t : Thread) : (s.setThread t).mem = s.mem := rfl
@[simp] theorem State.setThread_saved (s : State) (t : Thread) : (s.setThread t).saved = s.saved := rfl
@[simp] theorem State.setThread_parts (s : State) (t : Thread) : (s.setThread t).parts = s.parts := rfl
@[simp] theorem State.setThread_facets (s : State) (t : Thread) : (s.setThread t).facets = s.facets := rfl
@[simp] theorem State.setThread_moves (s : State) (t : Thread) : (s.setThread t).moves = s.moves := rfl
@[simp] theorem State.setThread_chruns (s : State) (t : Thread) : (s.setThread t).chruns = s.chruns := rfl
@[simp] theorem State.setThread_chords (s : State) (t : Thread) : (s.setThread t).chords = s.chords := rfl
@[simp] theorem State.setThread_plans (s : State) (t : Thread) : (s.setThread t).plans = s.plans := rfl
@[simp] theorem State.setThread_pkgid (s : State) (t : Thread) : (s.setThread t).pkgid = s.pkgid := rfl
@[simp] theorem State.setThread_fstreams (s : State) (t : Thread) : (s.setThread t).fstreams = s.fstreams := rfl
@[simp] theorem State.setThread_sends (s : State) (t : Thread) : (s.setThread t).sends = s.sends := rfl
@[simp] theorem State.setThread_inbox (s : State) (t : Thread) : (s.setThread t).inbox = s.inbox := rfl
@[simp] theorem State.setThread_contribs (s : State) (t : Thread) : (s.setThread t).contribs = s.contribs := rfl
@[simp] theorem State.setThread_apexes (s : State) (t : Thread) : (s.setThread t).apexes = s.apexes := rfl
@[simp] theorem State.setThread_accepted (s : State) (t : Thread) : (s.setThread t).accepted = s.accepted := rfl
@[simp] theorem State.setThread_nextOp (s : State) (t : Thread) : (s.setThread t).nextOp = s.nextOp := rfl
@[simp] theorem State.setThread_hdmbase (s : State) (t : Thread) : (s.setThread t).hdmbase = s.hdmbase := rfl
@[simp] theorem State.setThread_vtab (s : State) (t : Thread) : (s.setThread t).vtab = s.vtab := rfl
@[simp] theorem State.setThread_vpins (s : State) (t : Thread) : (s.setThread t).vpins = s.vpins := rfl
@[simp] theorem State.setThread_vgiven (s : State) (t : Thread) : (s.setThread t).vgiven = s.vgiven := rfl
@[simp] theorem State.setThread_time (s : State) (t : Thread) : (s.setThread t).time = s.time := rfl
@[simp] theorem State.setThread_cyc (s : State) (t : Thread) : (s.setThread t).cyc = s.cyc := rfl
@[simp] theorem State.setThread_frac (s : State) (t : Thread) : (s.setThread t).frac = s.frac := rfl
@[simp] theorem State.setThread_memcap (s : State) (t : Thread) : (s.setThread t).memcap = s.memcap := rfl
@[simp] theorem State.setThread_evCount (s : State) (t : Thread) : (s.setThread t).evCount = s.evCount := rfl
@[simp] theorem State.setThread_msix (s : State) (t : Thread) : (s.setThread t).msix = s.msix := rfl
@[simp] theorem State.setThread_seqHost (s : State) (t : Thread) : (s.setThread t).seqHost = s.seqHost := rfl
@[simp] theorem State.setThread_seqSup (s : State) (t : Thread) : (s.setThread t).seqSup = s.seqSup := rfl
@[simp] theorem State.setThread_sent (s : State) (t : Thread) : (s.setThread t).sent = s.sent := rfl
@[simp] theorem State.setThread_reports (s : State) (t : Thread) : (s.setThread t).reports = s.reports := rfl
@[simp] theorem State.setThread_spdm (s : State) (t : Thread) : (s.setThread t).spdm = s.spdm := rfl
@[simp] theorem State.setThread_doeSession (s : State) (t : Thread) : (s.setThread t).doeSession = s.doeSession := rfl
@[simp] theorem State.setThread_mgmtSession (s : State) (t : Thread) : (s.setThread t).mgmtSession = s.mgmtSession := rfl
@[simp] theorem State.setThread_slew (s : State) (t : Thread) : (s.setThread t).slew = s.slew := rfl
@[simp] theorem State.setThread_ptpLocked (s : State) (t : Thread) : (s.setThread t).ptpLocked = s.ptpLocked := rfl
@[simp] theorem State.setThread_ptpEver (s : State) (t : Thread) : (s.setThread t).ptpEver = s.ptpEver := rfl
@[simp] theorem State.setThread_ptpOffset (s : State) (t : Thread) : (s.setThread t).ptpOffset = s.ptpOffset := rfl
@[simp] theorem State.setThread_ptp (s : State) (t : Thread) : (s.setThread t).ptp = s.ptp := rfl
@[simp] theorem State.setThread_ptpSlew (s : State) (t : Thread) : (s.setThread t).ptpSlew = s.ptpSlew := rfl
@[simp] theorem State.setThread_failedPorts (s : State) (t : Thread) : (s.setThread t).failedPorts = s.failedPorts := rfl
@[simp] theorem State.setThread_firmware (s : State) (t : Thread) : (s.setThread t).firmware = s.firmware := rfl
@[simp] theorem State.setThread_stored (s : State) (t : Thread) : (s.setThread t).stored = s.stored := rfl
@[simp] theorem State.setThread_rollback (s : State) (t : Thread) : (s.setThread t).rollback = s.rollback := rfl
@[simp] theorem State.setThread_recovery (s : State) (t : Thread) : (s.setThread t).recovery = s.recovery := rfl
@[simp] theorem State.setThread_hostRead (s : State) (t : Thread) : (s.setThread t).hostRead = s.hostRead := rfl
@[simp] theorem State.setThread_syncs (s : State) (t : Thread) : (s.setThread t).syncs = s.syncs := rfl
@[simp] theorem State.setThread_tlb (s : State) (t : Thread) : (s.setThread t).tlb = s.tlb := rfl
@[simp] theorem State.setThread_code (s : State) (t : Thread) : (s.setThread t).code = s.code := rfl
@[simp] theorem State.setThread_torn (s : State) (t : Thread) : (s.setThread t).torn = s.torn := rfl
@[simp] theorem State.setThread_agenda (s : State) (t : Thread) : (s.setThread t).agenda = s.agenda := rfl
@[simp] theorem State.setThread_cur (s : State) (t : Thread) : (s.setThread t).cur = s.cur := rfl
@[simp] theorem State.setThread_ctr (s : State) (t : Thread) : (s.setThread t).ctr = s.ctr := rfl

@[simp] theorem State.setPart_mem (s : State) (p : Nat) (v : Partition) : (s.setPart p v).mem = s.mem := rfl
@[simp] theorem State.setPart_threads (s : State) (p : Nat) (v : Partition) : (s.setPart p v).threads = s.threads := rfl
@[simp] theorem State.setPart_saved (s : State) (p : Nat) (v : Partition) : (s.setPart p v).saved = s.saved := rfl
@[simp] theorem State.setPart_facets (s : State) (p : Nat) (v : Partition) : (s.setPart p v).facets = s.facets := rfl
@[simp] theorem State.setPart_moves (s : State) (p : Nat) (v : Partition) : (s.setPart p v).moves = s.moves := rfl
@[simp] theorem State.setPart_chruns (s : State) (p : Nat) (v : Partition) : (s.setPart p v).chruns = s.chruns := rfl
@[simp] theorem State.setPart_chords (s : State) (p : Nat) (v : Partition) : (s.setPart p v).chords = s.chords := rfl
@[simp] theorem State.setPart_plans (s : State) (p : Nat) (v : Partition) : (s.setPart p v).plans = s.plans := rfl
@[simp] theorem State.setPart_pkgid (s : State) (p : Nat) (v : Partition) : (s.setPart p v).pkgid = s.pkgid := rfl
@[simp] theorem State.setPart_fstreams (s : State) (p : Nat) (v : Partition) : (s.setPart p v).fstreams = s.fstreams := rfl
@[simp] theorem State.setPart_sends (s : State) (p : Nat) (v : Partition) : (s.setPart p v).sends = s.sends := rfl
@[simp] theorem State.setPart_inbox (s : State) (p : Nat) (v : Partition) : (s.setPart p v).inbox = s.inbox := rfl
@[simp] theorem State.setPart_contribs (s : State) (p : Nat) (v : Partition) : (s.setPart p v).contribs = s.contribs := rfl
@[simp] theorem State.setPart_apexes (s : State) (p : Nat) (v : Partition) : (s.setPart p v).apexes = s.apexes := rfl
@[simp] theorem State.setPart_accepted (s : State) (p : Nat) (v : Partition) : (s.setPart p v).accepted = s.accepted := rfl
@[simp] theorem State.setPart_nextOp (s : State) (p : Nat) (v : Partition) : (s.setPart p v).nextOp = s.nextOp := rfl
@[simp] theorem State.setPart_hdmbase (s : State) (p : Nat) (v : Partition) : (s.setPart p v).hdmbase = s.hdmbase := rfl
@[simp] theorem State.setPart_vtab (s : State) (p : Nat) (v : Partition) : (s.setPart p v).vtab = s.vtab := rfl
@[simp] theorem State.setPart_vpins (s : State) (p : Nat) (v : Partition) : (s.setPart p v).vpins = s.vpins := rfl
@[simp] theorem State.setPart_vgiven (s : State) (p : Nat) (v : Partition) : (s.setPart p v).vgiven = s.vgiven := rfl
@[simp] theorem State.setPart_time (s : State) (p : Nat) (v : Partition) : (s.setPart p v).time = s.time := rfl
@[simp] theorem State.setPart_cyc (s : State) (p : Nat) (v : Partition) : (s.setPart p v).cyc = s.cyc := rfl
@[simp] theorem State.setPart_frac (s : State) (p : Nat) (v : Partition) : (s.setPart p v).frac = s.frac := rfl
@[simp] theorem State.setPart_memcap (s : State) (p : Nat) (v : Partition) : (s.setPart p v).memcap = s.memcap := rfl
@[simp] theorem State.setPart_evCount (s : State) (p : Nat) (v : Partition) : (s.setPart p v).evCount = s.evCount := rfl
@[simp] theorem State.setPart_msix (s : State) (p : Nat) (v : Partition) : (s.setPart p v).msix = s.msix := rfl
@[simp] theorem State.setPart_seqHost (s : State) (p : Nat) (v : Partition) : (s.setPart p v).seqHost = s.seqHost := rfl
@[simp] theorem State.setPart_seqSup (s : State) (p : Nat) (v : Partition) : (s.setPart p v).seqSup = s.seqSup := rfl
@[simp] theorem State.setPart_sent (s : State) (p : Nat) (v : Partition) : (s.setPart p v).sent = s.sent := rfl
@[simp] theorem State.setPart_reports (s : State) (p : Nat) (v : Partition) : (s.setPart p v).reports = s.reports := rfl
@[simp] theorem State.setPart_spdm (s : State) (p : Nat) (v : Partition) : (s.setPart p v).spdm = s.spdm := rfl
@[simp] theorem State.setPart_doeSession (s : State) (p : Nat) (v : Partition) : (s.setPart p v).doeSession = s.doeSession := rfl
@[simp] theorem State.setPart_mgmtSession (s : State) (p : Nat) (v : Partition) : (s.setPart p v).mgmtSession = s.mgmtSession := rfl
@[simp] theorem State.setPart_slew (s : State) (p : Nat) (v : Partition) : (s.setPart p v).slew = s.slew := rfl
@[simp] theorem State.setPart_ptpLocked (s : State) (p : Nat) (v : Partition) : (s.setPart p v).ptpLocked = s.ptpLocked := rfl
@[simp] theorem State.setPart_ptpEver (s : State) (p : Nat) (v : Partition) : (s.setPart p v).ptpEver = s.ptpEver := rfl
@[simp] theorem State.setPart_ptpOffset (s : State) (p : Nat) (v : Partition) : (s.setPart p v).ptpOffset = s.ptpOffset := rfl
@[simp] theorem State.setPart_ptp (s : State) (p : Nat) (v : Partition) : (s.setPart p v).ptp = s.ptp := rfl
@[simp] theorem State.setPart_ptpSlew (s : State) (p : Nat) (v : Partition) : (s.setPart p v).ptpSlew = s.ptpSlew := rfl
@[simp] theorem State.setPart_failedPorts (s : State) (p : Nat) (v : Partition) : (s.setPart p v).failedPorts = s.failedPorts := rfl
@[simp] theorem State.setPart_firmware (s : State) (p : Nat) (v : Partition) : (s.setPart p v).firmware = s.firmware := rfl
@[simp] theorem State.setPart_stored (s : State) (p : Nat) (v : Partition) : (s.setPart p v).stored = s.stored := rfl
@[simp] theorem State.setPart_rollback (s : State) (p : Nat) (v : Partition) : (s.setPart p v).rollback = s.rollback := rfl
@[simp] theorem State.setPart_recovery (s : State) (p : Nat) (v : Partition) : (s.setPart p v).recovery = s.recovery := rfl
@[simp] theorem State.setPart_hostRead (s : State) (p : Nat) (v : Partition) : (s.setPart p v).hostRead = s.hostRead := rfl
@[simp] theorem State.setPart_syncs (s : State) (p : Nat) (v : Partition) : (s.setPart p v).syncs = s.syncs := rfl
@[simp] theorem State.setPart_tlb (s : State) (p : Nat) (v : Partition) : (s.setPart p v).tlb = s.tlb := rfl
@[simp] theorem State.setPart_code (s : State) (p : Nat) (v : Partition) : (s.setPart p v).code = s.code := rfl
@[simp] theorem State.setPart_torn (s : State) (p : Nat) (v : Partition) : (s.setPart p v).torn = s.torn := rfl
@[simp] theorem State.setPart_agenda (s : State) (p : Nat) (v : Partition) : (s.setPart p v).agenda = s.agenda := rfl
@[simp] theorem State.setPart_cur (s : State) (p : Nat) (v : Partition) : (s.setPart p v).cur = s.cur := rfl
@[simp] theorem State.setPart_ctr (s : State) (p : Nat) (v : Partition) : (s.setPart p v).ctr = s.ctr := rfl

@[simp] theorem State.setFacet_mem (s : State) (f : Nat) (v : Facet) : (s.setFacet f v).mem = s.mem := rfl
@[simp] theorem State.setFacet_threads (s : State) (f : Nat) (v : Facet) : (s.setFacet f v).threads = s.threads := rfl
@[simp] theorem State.setFacet_saved (s : State) (f : Nat) (v : Facet) : (s.setFacet f v).saved = s.saved := rfl
@[simp] theorem State.setFacet_parts (s : State) (f : Nat) (v : Facet) : (s.setFacet f v).parts = s.parts := rfl
@[simp] theorem State.setFacet_moves (s : State) (f : Nat) (v : Facet) : (s.setFacet f v).moves = s.moves := rfl
@[simp] theorem State.setFacet_chruns (s : State) (f : Nat) (v : Facet) : (s.setFacet f v).chruns = s.chruns := rfl
@[simp] theorem State.setFacet_chords (s : State) (f : Nat) (v : Facet) : (s.setFacet f v).chords = s.chords := rfl
@[simp] theorem State.setFacet_plans (s : State) (f : Nat) (v : Facet) : (s.setFacet f v).plans = s.plans := rfl
@[simp] theorem State.setFacet_pkgid (s : State) (f : Nat) (v : Facet) : (s.setFacet f v).pkgid = s.pkgid := rfl
@[simp] theorem State.setFacet_fstreams (s : State) (f : Nat) (v : Facet) : (s.setFacet f v).fstreams = s.fstreams := rfl
@[simp] theorem State.setFacet_sends (s : State) (f : Nat) (v : Facet) : (s.setFacet f v).sends = s.sends := rfl
@[simp] theorem State.setFacet_inbox (s : State) (f : Nat) (v : Facet) : (s.setFacet f v).inbox = s.inbox := rfl
@[simp] theorem State.setFacet_contribs (s : State) (f : Nat) (v : Facet) : (s.setFacet f v).contribs = s.contribs := rfl
@[simp] theorem State.setFacet_apexes (s : State) (f : Nat) (v : Facet) : (s.setFacet f v).apexes = s.apexes := rfl
@[simp] theorem State.setFacet_accepted (s : State) (f : Nat) (v : Facet) : (s.setFacet f v).accepted = s.accepted := rfl
@[simp] theorem State.setFacet_nextOp (s : State) (f : Nat) (v : Facet) : (s.setFacet f v).nextOp = s.nextOp := rfl
@[simp] theorem State.setFacet_hdmbase (s : State) (f : Nat) (v : Facet) : (s.setFacet f v).hdmbase = s.hdmbase := rfl
@[simp] theorem State.setFacet_vtab (s : State) (f : Nat) (v : Facet) : (s.setFacet f v).vtab = s.vtab := rfl
@[simp] theorem State.setFacet_vpins (s : State) (f : Nat) (v : Facet) : (s.setFacet f v).vpins = s.vpins := rfl
@[simp] theorem State.setFacet_vgiven (s : State) (f : Nat) (v : Facet) : (s.setFacet f v).vgiven = s.vgiven := rfl
@[simp] theorem State.setFacet_time (s : State) (f : Nat) (v : Facet) : (s.setFacet f v).time = s.time := rfl
@[simp] theorem State.setFacet_cyc (s : State) (f : Nat) (v : Facet) : (s.setFacet f v).cyc = s.cyc := rfl
@[simp] theorem State.setFacet_frac (s : State) (f : Nat) (v : Facet) : (s.setFacet f v).frac = s.frac := rfl
@[simp] theorem State.setFacet_memcap (s : State) (f : Nat) (v : Facet) : (s.setFacet f v).memcap = s.memcap := rfl
@[simp] theorem State.setFacet_evCount (s : State) (f : Nat) (v : Facet) : (s.setFacet f v).evCount = s.evCount := rfl
@[simp] theorem State.setFacet_msix (s : State) (f : Nat) (v : Facet) : (s.setFacet f v).msix = s.msix := rfl
@[simp] theorem State.setFacet_seqHost (s : State) (f : Nat) (v : Facet) : (s.setFacet f v).seqHost = s.seqHost := rfl
@[simp] theorem State.setFacet_seqSup (s : State) (f : Nat) (v : Facet) : (s.setFacet f v).seqSup = s.seqSup := rfl
@[simp] theorem State.setFacet_sent (s : State) (f : Nat) (v : Facet) : (s.setFacet f v).sent = s.sent := rfl
@[simp] theorem State.setFacet_reports (s : State) (f : Nat) (v : Facet) : (s.setFacet f v).reports = s.reports := rfl
@[simp] theorem State.setFacet_spdm (s : State) (f : Nat) (v : Facet) : (s.setFacet f v).spdm = s.spdm := rfl
@[simp] theorem State.setFacet_doeSession (s : State) (f : Nat) (v : Facet) : (s.setFacet f v).doeSession = s.doeSession := rfl
@[simp] theorem State.setFacet_mgmtSession (s : State) (f : Nat) (v : Facet) : (s.setFacet f v).mgmtSession = s.mgmtSession := rfl
@[simp] theorem State.setFacet_slew (s : State) (f : Nat) (v : Facet) : (s.setFacet f v).slew = s.slew := rfl
@[simp] theorem State.setFacet_ptpLocked (s : State) (f : Nat) (v : Facet) : (s.setFacet f v).ptpLocked = s.ptpLocked := rfl
@[simp] theorem State.setFacet_ptpEver (s : State) (f : Nat) (v : Facet) : (s.setFacet f v).ptpEver = s.ptpEver := rfl
@[simp] theorem State.setFacet_ptpOffset (s : State) (f : Nat) (v : Facet) : (s.setFacet f v).ptpOffset = s.ptpOffset := rfl
@[simp] theorem State.setFacet_ptp (s : State) (f : Nat) (v : Facet) : (s.setFacet f v).ptp = s.ptp := rfl
@[simp] theorem State.setFacet_ptpSlew (s : State) (f : Nat) (v : Facet) : (s.setFacet f v).ptpSlew = s.ptpSlew := rfl
@[simp] theorem State.setFacet_failedPorts (s : State) (f : Nat) (v : Facet) : (s.setFacet f v).failedPorts = s.failedPorts := rfl
@[simp] theorem State.setFacet_firmware (s : State) (f : Nat) (v : Facet) : (s.setFacet f v).firmware = s.firmware := rfl
@[simp] theorem State.setFacet_stored (s : State) (f : Nat) (v : Facet) : (s.setFacet f v).stored = s.stored := rfl
@[simp] theorem State.setFacet_rollback (s : State) (f : Nat) (v : Facet) : (s.setFacet f v).rollback = s.rollback := rfl
@[simp] theorem State.setFacet_recovery (s : State) (f : Nat) (v : Facet) : (s.setFacet f v).recovery = s.recovery := rfl
@[simp] theorem State.setFacet_hostRead (s : State) (f : Nat) (v : Facet) : (s.setFacet f v).hostRead = s.hostRead := rfl
@[simp] theorem State.setFacet_syncs (s : State) (f : Nat) (v : Facet) : (s.setFacet f v).syncs = s.syncs := rfl
@[simp] theorem State.setFacet_tlb (s : State) (f : Nat) (v : Facet) : (s.setFacet f v).tlb = s.tlb := rfl
@[simp] theorem State.setFacet_code (s : State) (f : Nat) (v : Facet) : (s.setFacet f v).code = s.code := rfl
@[simp] theorem State.setFacet_torn (s : State) (f : Nat) (v : Facet) : (s.setFacet f v).torn = s.torn := rfl
@[simp] theorem State.setFacet_agenda (s : State) (f : Nat) (v : Facet) : (s.setFacet f v).agenda = s.agenda := rfl
@[simp] theorem State.setFacet_cur (s : State) (f : Nat) (v : Facet) : (s.setFacet f v).cur = s.cur := rfl
@[simp] theorem State.setFacet_ctr (s : State) (f : Nat) (v : Facet) : (s.setFacet f v).ctr = s.ctr := rfl

@[simp] theorem State.tick_mem (s : State)  : (s.tick).mem = s.mem := rfl
@[simp] theorem State.tick_threads (s : State)  : (s.tick).threads = s.threads := rfl
@[simp] theorem State.tick_saved (s : State)  : (s.tick).saved = s.saved := rfl
@[simp] theorem State.tick_parts (s : State)  : (s.tick).parts = s.parts := rfl
@[simp] theorem State.tick_facets (s : State)  : (s.tick).facets = s.facets := rfl
@[simp] theorem State.tick_moves (s : State)  : (s.tick).moves = s.moves := rfl
@[simp] theorem State.tick_chruns (s : State)  : (s.tick).chruns = s.chruns := rfl
@[simp] theorem State.tick_chords (s : State)  : (s.tick).chords = s.chords := rfl
@[simp] theorem State.tick_plans (s : State)  : (s.tick).plans = s.plans := rfl
@[simp] theorem State.tick_pkgid (s : State)  : (s.tick).pkgid = s.pkgid := rfl
@[simp] theorem State.tick_fstreams (s : State)  : (s.tick).fstreams = s.fstreams := rfl
@[simp] theorem State.tick_sends (s : State)  : (s.tick).sends = s.sends := rfl
@[simp] theorem State.tick_inbox (s : State)  : (s.tick).inbox = s.inbox := rfl
@[simp] theorem State.tick_contribs (s : State)  : (s.tick).contribs = s.contribs := rfl
@[simp] theorem State.tick_apexes (s : State)  : (s.tick).apexes = s.apexes := rfl
@[simp] theorem State.tick_accepted (s : State)  : (s.tick).accepted = s.accepted := rfl
@[simp] theorem State.tick_nextOp (s : State)  : (s.tick).nextOp = s.nextOp := rfl
@[simp] theorem State.tick_hdmbase (s : State)  : (s.tick).hdmbase = s.hdmbase := rfl
@[simp] theorem State.tick_vtab (s : State)  : (s.tick).vtab = s.vtab := rfl
@[simp] theorem State.tick_vpins (s : State)  : (s.tick).vpins = s.vpins := rfl
@[simp] theorem State.tick_vgiven (s : State)  : (s.tick).vgiven = s.vgiven := rfl
@[simp] theorem State.tick_time (s : State)  : (s.tick).time = s.time := rfl
@[simp] theorem State.tick_cyc (s : State)  : (s.tick).cyc = s.cyc := rfl
@[simp] theorem State.tick_frac (s : State)  : (s.tick).frac = s.frac := rfl
@[simp] theorem State.tick_memcap (s : State)  : (s.tick).memcap = s.memcap := rfl
@[simp] theorem State.tick_evCount (s : State)  : (s.tick).evCount = s.evCount := rfl
@[simp] theorem State.tick_msix (s : State)  : (s.tick).msix = s.msix := rfl
@[simp] theorem State.tick_seqHost (s : State)  : (s.tick).seqHost = s.seqHost := rfl
@[simp] theorem State.tick_seqSup (s : State)  : (s.tick).seqSup = s.seqSup := rfl
@[simp] theorem State.tick_sent (s : State)  : (s.tick).sent = s.sent := rfl
@[simp] theorem State.tick_reports (s : State)  : (s.tick).reports = s.reports := rfl
@[simp] theorem State.tick_spdm (s : State)  : (s.tick).spdm = s.spdm := rfl
@[simp] theorem State.tick_doeSession (s : State)  : (s.tick).doeSession = s.doeSession := rfl
@[simp] theorem State.tick_mgmtSession (s : State)  : (s.tick).mgmtSession = s.mgmtSession := rfl
@[simp] theorem State.tick_slew (s : State)  : (s.tick).slew = s.slew := rfl
@[simp] theorem State.tick_ptpLocked (s : State)  : (s.tick).ptpLocked = s.ptpLocked := rfl
@[simp] theorem State.tick_ptpEver (s : State)  : (s.tick).ptpEver = s.ptpEver := rfl
@[simp] theorem State.tick_ptpOffset (s : State)  : (s.tick).ptpOffset = s.ptpOffset := rfl
@[simp] theorem State.tick_ptp (s : State)  : (s.tick).ptp = s.ptp := rfl
@[simp] theorem State.tick_ptpSlew (s : State)  : (s.tick).ptpSlew = s.ptpSlew := rfl
@[simp] theorem State.tick_failedPorts (s : State)  : (s.tick).failedPorts = s.failedPorts := rfl
@[simp] theorem State.tick_firmware (s : State)  : (s.tick).firmware = s.firmware := rfl
@[simp] theorem State.tick_stored (s : State)  : (s.tick).stored = s.stored := rfl
@[simp] theorem State.tick_rollback (s : State)  : (s.tick).rollback = s.rollback := rfl
@[simp] theorem State.tick_recovery (s : State)  : (s.tick).recovery = s.recovery := rfl
@[simp] theorem State.tick_hostRead (s : State)  : (s.tick).hostRead = s.hostRead := rfl
@[simp] theorem State.tick_syncs (s : State)  : (s.tick).syncs = s.syncs := rfl
@[simp] theorem State.tick_tlb (s : State)  : (s.tick).tlb = s.tlb := rfl
@[simp] theorem State.tick_code (s : State)  : (s.tick).code = s.code := rfl
@[simp] theorem State.tick_torn (s : State)  : (s.tick).torn = s.torn := rfl
@[simp] theorem State.tick_agenda (s : State)  : (s.tick).agenda = s.agenda := rfl
@[simp] theorem State.tick_cur (s : State)  : (s.tick).cur = s.cur := rfl

@[simp] theorem State.report_mem (s : State) (r : Report) : (s.report r).mem = s.mem := rfl
@[simp] theorem State.report_threads (s : State) (r : Report) : (s.report r).threads = s.threads := rfl
@[simp] theorem State.report_saved (s : State) (r : Report) : (s.report r).saved = s.saved := rfl
@[simp] theorem State.report_parts (s : State) (r : Report) : (s.report r).parts = s.parts := rfl
@[simp] theorem State.report_facets (s : State) (r : Report) : (s.report r).facets = s.facets := rfl
@[simp] theorem State.report_moves (s : State) (r : Report) : (s.report r).moves = s.moves := rfl
@[simp] theorem State.report_chruns (s : State) (r : Report) : (s.report r).chruns = s.chruns := rfl
@[simp] theorem State.report_chords (s : State) (r : Report) : (s.report r).chords = s.chords := rfl
@[simp] theorem State.report_plans (s : State) (r : Report) : (s.report r).plans = s.plans := rfl
@[simp] theorem State.report_pkgid (s : State) (r : Report) : (s.report r).pkgid = s.pkgid := rfl
@[simp] theorem State.report_fstreams (s : State) (r : Report) : (s.report r).fstreams = s.fstreams := rfl
@[simp] theorem State.report_sends (s : State) (r : Report) : (s.report r).sends = s.sends := rfl
@[simp] theorem State.report_inbox (s : State) (r : Report) : (s.report r).inbox = s.inbox := rfl
@[simp] theorem State.report_contribs (s : State) (r : Report) : (s.report r).contribs = s.contribs := rfl
@[simp] theorem State.report_apexes (s : State) (r : Report) : (s.report r).apexes = s.apexes := rfl
@[simp] theorem State.report_accepted (s : State) (r : Report) : (s.report r).accepted = s.accepted := rfl
@[simp] theorem State.report_nextOp (s : State) (r : Report) : (s.report r).nextOp = s.nextOp := rfl
@[simp] theorem State.report_hdmbase (s : State) (r : Report) : (s.report r).hdmbase = s.hdmbase := rfl
@[simp] theorem State.report_vtab (s : State) (r : Report) : (s.report r).vtab = s.vtab := rfl
@[simp] theorem State.report_vpins (s : State) (r : Report) : (s.report r).vpins = s.vpins := rfl
@[simp] theorem State.report_vgiven (s : State) (r : Report) : (s.report r).vgiven = s.vgiven := rfl
@[simp] theorem State.report_time (s : State) (r : Report) : (s.report r).time = s.time := rfl
@[simp] theorem State.report_cyc (s : State) (r : Report) : (s.report r).cyc = s.cyc := rfl
@[simp] theorem State.report_frac (s : State) (r : Report) : (s.report r).frac = s.frac := rfl
@[simp] theorem State.report_memcap (s : State) (r : Report) : (s.report r).memcap = s.memcap := rfl
@[simp] theorem State.report_evCount (s : State) (r : Report) : (s.report r).evCount = s.evCount := rfl
@[simp] theorem State.report_msix (s : State) (r : Report) : (s.report r).msix = s.msix := rfl
@[simp] theorem State.report_seqHost (s : State) (r : Report) : (s.report r).seqHost = s.seqHost := rfl
@[simp] theorem State.report_seqSup (s : State) (r : Report) : (s.report r).seqSup = s.seqSup := rfl
@[simp] theorem State.report_sent (s : State) (r : Report) : (s.report r).sent = s.sent := rfl
@[simp] theorem State.report_spdm (s : State) (r : Report) : (s.report r).spdm = s.spdm := rfl
@[simp] theorem State.report_doeSession (s : State) (r : Report) : (s.report r).doeSession = s.doeSession := rfl
@[simp] theorem State.report_mgmtSession (s : State) (r : Report) : (s.report r).mgmtSession = s.mgmtSession := rfl
@[simp] theorem State.report_slew (s : State) (r : Report) : (s.report r).slew = s.slew := rfl
@[simp] theorem State.report_ptpLocked (s : State) (r : Report) : (s.report r).ptpLocked = s.ptpLocked := rfl
@[simp] theorem State.report_ptpEver (s : State) (r : Report) : (s.report r).ptpEver = s.ptpEver := rfl
@[simp] theorem State.report_ptpOffset (s : State) (r : Report) : (s.report r).ptpOffset = s.ptpOffset := rfl
@[simp] theorem State.report_ptp (s : State) (r : Report) : (s.report r).ptp = s.ptp := rfl
@[simp] theorem State.report_ptpSlew (s : State) (r : Report) : (s.report r).ptpSlew = s.ptpSlew := rfl
@[simp] theorem State.report_failedPorts (s : State) (r : Report) : (s.report r).failedPorts = s.failedPorts := rfl
@[simp] theorem State.report_firmware (s : State) (r : Report) : (s.report r).firmware = s.firmware := rfl
@[simp] theorem State.report_stored (s : State) (r : Report) : (s.report r).stored = s.stored := rfl
@[simp] theorem State.report_rollback (s : State) (r : Report) : (s.report r).rollback = s.rollback := rfl
@[simp] theorem State.report_recovery (s : State) (r : Report) : (s.report r).recovery = s.recovery := rfl
@[simp] theorem State.report_hostRead (s : State) (r : Report) : (s.report r).hostRead = s.hostRead := rfl
@[simp] theorem State.report_syncs (s : State) (r : Report) : (s.report r).syncs = s.syncs := rfl
@[simp] theorem State.report_tlb (s : State) (r : Report) : (s.report r).tlb = s.tlb := rfl
@[simp] theorem State.report_code (s : State) (r : Report) : (s.report r).code = s.code := rfl
@[simp] theorem State.report_torn (s : State) (r : Report) : (s.report r).torn = s.torn := rfl
@[simp] theorem State.report_agenda (s : State) (r : Report) : (s.report r).agenda = s.agenda := rfl
@[simp] theorem State.report_cur (s : State) (r : Report) : (s.report r).cur = s.cur := rfl
@[simp] theorem State.report_ctr (s : State) (r : Report) : (s.report r).ctr = s.ctr := rfl

@[simp] theorem State.event_threads (s : State) (k a : Nat) : (s.event k a).threads = s.threads := rfl
@[simp] theorem State.event_saved (s : State) (k a : Nat) : (s.event k a).saved = s.saved := rfl
@[simp] theorem State.event_parts (s : State) (k a : Nat) : (s.event k a).parts = s.parts := rfl
@[simp] theorem State.event_facets (s : State) (k a : Nat) : (s.event k a).facets = s.facets := rfl
@[simp] theorem State.event_moves (s : State) (k a : Nat) : (s.event k a).moves = s.moves := rfl
@[simp] theorem State.event_chruns (s : State) (k a : Nat) : (s.event k a).chruns = s.chruns := rfl
@[simp] theorem State.event_chords (s : State) (k a : Nat) : (s.event k a).chords = s.chords := rfl
@[simp] theorem State.event_plans (s : State) (k a : Nat) : (s.event k a).plans = s.plans := rfl
@[simp] theorem State.event_pkgid (s : State) (k a : Nat) : (s.event k a).pkgid = s.pkgid := rfl
@[simp] theorem State.event_fstreams (s : State) (k a : Nat) : (s.event k a).fstreams = s.fstreams := rfl
@[simp] theorem State.event_sends (s : State) (k a : Nat) : (s.event k a).sends = s.sends := rfl
@[simp] theorem State.event_inbox (s : State) (k a : Nat) : (s.event k a).inbox = s.inbox := rfl
@[simp] theorem State.event_contribs (s : State) (k a : Nat) : (s.event k a).contribs = s.contribs := rfl
@[simp] theorem State.event_apexes (s : State) (k a : Nat) : (s.event k a).apexes = s.apexes := rfl
@[simp] theorem State.event_accepted (s : State) (k a : Nat) : (s.event k a).accepted = s.accepted := rfl
@[simp] theorem State.event_nextOp (s : State) (k a : Nat) : (s.event k a).nextOp = s.nextOp := rfl
@[simp] theorem State.event_hdmbase (s : State) (k a : Nat) : (s.event k a).hdmbase = s.hdmbase := rfl
@[simp] theorem State.event_vtab (s : State) (k a : Nat) : (s.event k a).vtab = s.vtab := rfl
@[simp] theorem State.event_vpins (s : State) (k a : Nat) : (s.event k a).vpins = s.vpins := rfl
@[simp] theorem State.event_vgiven (s : State) (k a : Nat) : (s.event k a).vgiven = s.vgiven := rfl
@[simp] theorem State.event_time (s : State) (k a : Nat) : (s.event k a).time = s.time := rfl
@[simp] theorem State.event_cyc (s : State) (k a : Nat) : (s.event k a).cyc = s.cyc := rfl
@[simp] theorem State.event_frac (s : State) (k a : Nat) : (s.event k a).frac = s.frac := rfl
@[simp] theorem State.event_memcap (s : State) (k a : Nat) : (s.event k a).memcap = s.memcap := rfl
@[simp] theorem State.event_seqHost (s : State) (k a : Nat) : (s.event k a).seqHost = s.seqHost := rfl
@[simp] theorem State.event_seqSup (s : State) (k a : Nat) : (s.event k a).seqSup = s.seqSup := rfl
@[simp] theorem State.event_sent (s : State) (k a : Nat) : (s.event k a).sent = s.sent := rfl
@[simp] theorem State.event_reports (s : State) (k a : Nat) : (s.event k a).reports = s.reports := rfl
@[simp] theorem State.event_spdm (s : State) (k a : Nat) : (s.event k a).spdm = s.spdm := rfl
@[simp] theorem State.event_doeSession (s : State) (k a : Nat) : (s.event k a).doeSession = s.doeSession := rfl
@[simp] theorem State.event_mgmtSession (s : State) (k a : Nat) : (s.event k a).mgmtSession = s.mgmtSession := rfl
@[simp] theorem State.event_slew (s : State) (k a : Nat) : (s.event k a).slew = s.slew := rfl
@[simp] theorem State.event_ptpLocked (s : State) (k a : Nat) : (s.event k a).ptpLocked = s.ptpLocked := rfl
@[simp] theorem State.event_ptpEver (s : State) (k a : Nat) : (s.event k a).ptpEver = s.ptpEver := rfl
@[simp] theorem State.event_ptpOffset (s : State) (k a : Nat) : (s.event k a).ptpOffset = s.ptpOffset := rfl
@[simp] theorem State.event_ptp (s : State) (k a : Nat) : (s.event k a).ptp = s.ptp := rfl
@[simp] theorem State.event_ptpSlew (s : State) (k a : Nat) : (s.event k a).ptpSlew = s.ptpSlew := rfl
@[simp] theorem State.event_failedPorts (s : State) (k a : Nat) : (s.event k a).failedPorts = s.failedPorts := rfl
@[simp] theorem State.event_firmware (s : State) (k a : Nat) : (s.event k a).firmware = s.firmware := rfl
@[simp] theorem State.event_stored (s : State) (k a : Nat) : (s.event k a).stored = s.stored := rfl
@[simp] theorem State.event_rollback (s : State) (k a : Nat) : (s.event k a).rollback = s.rollback := rfl
@[simp] theorem State.event_recovery (s : State) (k a : Nat) : (s.event k a).recovery = s.recovery := rfl
@[simp] theorem State.event_hostRead (s : State) (k a : Nat) : (s.event k a).hostRead = s.hostRead := rfl
@[simp] theorem State.event_syncs (s : State) (k a : Nat) : (s.event k a).syncs = s.syncs := rfl
@[simp] theorem State.event_tlb (s : State) (k a : Nat) : (s.event k a).tlb = s.tlb := rfl
@[simp] theorem State.event_code (s : State) (k a : Nat) : (s.event k a).code = s.code := rfl
@[simp] theorem State.event_torn (s : State) (k a : Nat) : (s.event k a).torn = s.torn := rfl
@[simp] theorem State.event_agenda (s : State) (k a : Nat) : (s.event k a).agenda = s.agenda := rfl
@[simp] theorem State.event_cur (s : State) (k a : Nat) : (s.event k a).cur = s.cur := rfl
@[simp] theorem State.event_ctr (s : State) (k a : Nat) : (s.event k a).ctr = s.ctr := rfl

@[simp] theorem State.haltReport_threads (s : State) (k : Nat) : (s.haltReport k).threads = s.threads := rfl
@[simp] theorem State.haltReport_saved (s : State) (k : Nat) : (s.haltReport k).saved = s.saved := rfl
@[simp] theorem State.haltReport_parts (s : State) (k : Nat) : (s.haltReport k).parts = s.parts := rfl
@[simp] theorem State.haltReport_facets (s : State) (k : Nat) : (s.haltReport k).facets = s.facets := rfl
@[simp] theorem State.haltReport_moves (s : State) (k : Nat) : (s.haltReport k).moves = s.moves := rfl
@[simp] theorem State.haltReport_chruns (s : State) (k : Nat) : (s.haltReport k).chruns = s.chruns := rfl
@[simp] theorem State.haltReport_chords (s : State) (k : Nat) : (s.haltReport k).chords = s.chords := rfl
@[simp] theorem State.haltReport_plans (s : State) (k : Nat) : (s.haltReport k).plans = s.plans := rfl
@[simp] theorem State.haltReport_pkgid (s : State) (k : Nat) : (s.haltReport k).pkgid = s.pkgid := rfl
@[simp] theorem State.haltReport_fstreams (s : State) (k : Nat) : (s.haltReport k).fstreams = s.fstreams := rfl
@[simp] theorem State.haltReport_sends (s : State) (k : Nat) : (s.haltReport k).sends = s.sends := rfl
@[simp] theorem State.haltReport_inbox (s : State) (k : Nat) : (s.haltReport k).inbox = s.inbox := rfl
@[simp] theorem State.haltReport_contribs (s : State) (k : Nat) : (s.haltReport k).contribs = s.contribs := rfl
@[simp] theorem State.haltReport_apexes (s : State) (k : Nat) : (s.haltReport k).apexes = s.apexes := rfl
@[simp] theorem State.haltReport_accepted (s : State) (k : Nat) : (s.haltReport k).accepted = s.accepted := rfl
@[simp] theorem State.haltReport_nextOp (s : State) (k : Nat) : (s.haltReport k).nextOp = s.nextOp := rfl
@[simp] theorem State.haltReport_hdmbase (s : State) (k : Nat) : (s.haltReport k).hdmbase = s.hdmbase := rfl
@[simp] theorem State.haltReport_vtab (s : State) (k : Nat) : (s.haltReport k).vtab = s.vtab := rfl
@[simp] theorem State.haltReport_vpins (s : State) (k : Nat) : (s.haltReport k).vpins = s.vpins := rfl
@[simp] theorem State.haltReport_vgiven (s : State) (k : Nat) : (s.haltReport k).vgiven = s.vgiven := rfl
@[simp] theorem State.haltReport_time (s : State) (k : Nat) : (s.haltReport k).time = s.time := rfl
@[simp] theorem State.haltReport_cyc (s : State) (k : Nat) : (s.haltReport k).cyc = s.cyc := rfl
@[simp] theorem State.haltReport_frac (s : State) (k : Nat) : (s.haltReport k).frac = s.frac := rfl
@[simp] theorem State.haltReport_memcap (s : State) (k : Nat) : (s.haltReport k).memcap = s.memcap := rfl
@[simp] theorem State.haltReport_seqHost (s : State) (k : Nat) : (s.haltReport k).seqHost = s.seqHost := rfl
@[simp] theorem State.haltReport_seqSup (s : State) (k : Nat) : (s.haltReport k).seqSup = s.seqSup := rfl
@[simp] theorem State.haltReport_sent (s : State) (k : Nat) : (s.haltReport k).sent = s.sent := rfl
@[simp] theorem State.haltReport_spdm (s : State) (k : Nat) : (s.haltReport k).spdm = s.spdm := rfl
@[simp] theorem State.haltReport_doeSession (s : State) (k : Nat) : (s.haltReport k).doeSession = s.doeSession := rfl
@[simp] theorem State.haltReport_mgmtSession (s : State) (k : Nat) : (s.haltReport k).mgmtSession = s.mgmtSession := rfl
@[simp] theorem State.haltReport_slew (s : State) (k : Nat) : (s.haltReport k).slew = s.slew := rfl
@[simp] theorem State.haltReport_ptpLocked (s : State) (k : Nat) : (s.haltReport k).ptpLocked = s.ptpLocked := rfl
@[simp] theorem State.haltReport_ptpEver (s : State) (k : Nat) : (s.haltReport k).ptpEver = s.ptpEver := rfl
@[simp] theorem State.haltReport_ptpOffset (s : State) (k : Nat) : (s.haltReport k).ptpOffset = s.ptpOffset := rfl
@[simp] theorem State.haltReport_ptp (s : State) (k : Nat) : (s.haltReport k).ptp = s.ptp := rfl
@[simp] theorem State.haltReport_ptpSlew (s : State) (k : Nat) : (s.haltReport k).ptpSlew = s.ptpSlew := rfl
@[simp] theorem State.haltReport_failedPorts (s : State) (k : Nat) : (s.haltReport k).failedPorts = s.failedPorts := rfl
@[simp] theorem State.haltReport_firmware (s : State) (k : Nat) : (s.haltReport k).firmware = s.firmware := rfl
@[simp] theorem State.haltReport_stored (s : State) (k : Nat) : (s.haltReport k).stored = s.stored := rfl
@[simp] theorem State.haltReport_rollback (s : State) (k : Nat) : (s.haltReport k).rollback = s.rollback := rfl
@[simp] theorem State.haltReport_recovery (s : State) (k : Nat) : (s.haltReport k).recovery = s.recovery := rfl
@[simp] theorem State.haltReport_hostRead (s : State) (k : Nat) : (s.haltReport k).hostRead = s.hostRead := rfl
@[simp] theorem State.haltReport_syncs (s : State) (k : Nat) : (s.haltReport k).syncs = s.syncs := rfl
@[simp] theorem State.haltReport_tlb (s : State) (k : Nat) : (s.haltReport k).tlb = s.tlb := rfl
@[simp] theorem State.haltReport_code (s : State) (k : Nat) : (s.haltReport k).code = s.code := rfl
@[simp] theorem State.haltReport_torn (s : State) (k : Nat) : (s.haltReport k).torn = s.torn := rfl
@[simp] theorem State.haltReport_agenda (s : State) (k : Nat) : (s.haltReport k).agenda = s.agenda := rfl
@[simp] theorem State.haltReport_cur (s : State) (k : Nat) : (s.haltReport k).cur = s.cur := rfl
@[simp] theorem State.haltReport_ctr (s : State) (k : Nat) : (s.haltReport k).ctr = s.ctr := rfl

theorem find_replaceThread (l : List Thread) (t : Thread) (k : Nat) :
    (replaceThread l t).find? (fun u => u.slot == k)
      = if k = t.slot then (if (l.find? fun u => u.slot == k).isSome then some t else none) else l.find? fun u => u.slot == k := by
  induction l with
  | nil => simp [replaceThread]
  | cons u us ih =>
    by_cases h : u.slot = t.slot
    · by_cases hk : k = t.slot
      · simp [replaceThread, h, hk]
      · have : ¬ t.slot = k := fun e => hk e.symm
        simp [replaceThread, h, hk, this]
    · by_cases hk : k = t.slot
      · simp only [replaceThread, h, if_false, hk, if_true]
        have hb : (u.slot == t.slot) = false := by simpa using h
        simp only [List.find?_cons, hb]
        rw [hk] at ih
        simpa using ih
      · simp only [replaceThread, h, if_false, hk, List.find?_cons]
        rw [ih]
        simp [hk]

/-- Reading back the thread of the slot written, where the slot holds one. -/
theorem State.thread?_setThread_same (s : State) (t : Thread) (h : (s.thread? t.slot).isSome) :
    (s.setThread t).thread? t.slot = some t := by
  have e := find_replaceThread s.threads t t.slot
  simp only [State.thread?, State.setThread] at h ⊢
  rw [e]
  simp only [if_true, h]

/-- The threads of other slots are as before. -/
theorem State.thread?_setThread_other (s : State) (t : Thread) {k : Nat} (h : k ≠ t.slot) :
    (s.setThread t).thread? k = s.thread? k := by
  have e := find_replaceThread s.threads t k
  simp only [State.thread?, State.setThread]
  rw [e]
  simp [h]

theorem State.thread?_slot (s : State) {k : Nat} {t : Thread} (h : s.thread? k = some t) : t.slot = k := by
  simpa using List.find?_some h

@[simp] theorem State.partOf_setThread (s : State) (t u : Thread) : (s.setThread t).partOf u = s.partOf u := rfl
@[simp] theorem State.facet_setThread (s : State) (t : Thread) (f : Nat) : (s.setThread t).facet f = s.facet f := rfl
@[simp] theorem State.setThread_readN (s : State) (t : Thread) (a n : Nat) : (s.setThread t).mem.readN a n = s.mem.readN a n := rfl

end Sys2Proof.Machine
end

