-- ==== Sys2Proof/Laws/Thread.lean ====
section
/-! SUPPORT. What the updates of a thread leave alone: registers, queue registers, results, flags and the way past an instruction. -/

namespace Sys2Proof.Machine
open Sys2Proof

noncomputable section

@[simp] theorem Thread.wr_slot (t : Thread) (r : Reg) (v : BitVec 64) : (t.wr r v).slot = t.slot := by unfold Thread.wr; split <;> rfl
@[simp] theorem Thread.wr_part (t : Thread) (r : Reg) (v : BitVec 64) : (t.wr r v).part = t.part := by unfold Thread.wr; split <;> rfl
@[simp] theorem Thread.wr_launch (t : Thread) (r : Reg) (v : BitVec 64) : (t.wr r v).launch = t.launch := by unfold Thread.wr; split <;> rfl
@[simp] theorem Thread.wr_rank (t : Thread) (r : Reg) (v : BitVec 64) : (t.wr r v).rank = t.rank := by unfold Thread.wr; split <;> rfl
@[simp] theorem Thread.wr_run (t : Thread) (r : Reg) (v : BitVec 64) : (t.wr r v).run = t.run := by unfold Thread.wr; split <;> rfl
@[simp] theorem Thread.wr_pc (t : Thread) (r : Reg) (v : BitVec 64) : (t.wr r v).pc = t.pc := by unfold Thread.wr; split <;> rfl
@[simp] theorem Thread.wr_frm (t : Thread) (r : Reg) (v : BitVec 64) : (t.wr r v).frm = t.frm := by unfold Thread.wr; split <;> rfl
@[simp] theorem Thread.wr_xrm (t : Thread) (r : Reg) (v : BitVec 64) : (t.wr r v).xrm = t.xrm := by unfold Thread.wr; split <;> rfl
@[simp] theorem Thread.wr_fflags (t : Thread) (r : Reg) (v : BitVec 64) : (t.wr r v).fflags = t.fflags := by unfold Thread.wr; split <;> rfl
@[simp] theorem Thread.wr_sat (t : Thread) (r : Reg) (v : BitVec 64) : (t.wr r v).sat = t.sat := by unfold Thread.wr; split <;> rfl
@[simp] theorem Thread.wr_seed (t : Thread) (r : Reg) (v : BitVec 64) : (t.wr r v).seed = t.seed := by unfold Thread.wr; split <;> rfl
@[simp] theorem Thread.wr_carry (t : Thread) (r : Reg) (v : BitVec 64) : (t.wr r v).carry = t.carry := by unfold Thread.wr; split <;> rfl
@[simp] theorem Thread.wr_sup (t : Thread) (r : Reg) (v : BitVec 64) : (t.wr r v).sup = t.sup := by unfold Thread.wr; split <;> rfl
@[simp] theorem Thread.wr_vempty (t : Thread) (r : Reg) (v : BitVec 64) : (t.wr r v).vempty = t.vempty := by unfold Thread.wr; split <;> rfl
@[simp] theorem Thread.wr_det (t : Thread) (r : Reg) (v : BitVec 64) : (t.wr r v).det = t.det := by unfold Thread.wr; split <;> rfl
@[simp] theorem Thread.wr_pe (t : Thread) (r : Reg) (v : BitVec 64) : (t.wr r v).pe = t.pe := by unfold Thread.wr; split <;> rfl
@[simp] theorem Thread.wr_prioMax (t : Thread) (r : Reg) (v : BitVec 64) : (t.wr r v).prioMax = t.prioMax := by unfold Thread.wr; split <;> rfl
@[simp] theorem Thread.wr_level (t : Thread) (r : Reg) (v : BitVec 64) : (t.wr r v).level = t.level := by unfold Thread.wr; split <;> rfl
@[simp] theorem Thread.wr_weight (t : Thread) (r : Reg) (v : BitVec 64) : (t.wr r v).weight = t.weight := by unfold Thread.wr; split <;> rfl
@[simp] theorem Thread.wr_aspace (t : Thread) (r : Reg) (v : BitVec 64) : (t.wr r v).aspace = t.aspace := by unfold Thread.wr; split <;> rfl
@[simp] theorem Thread.wr_vtype (t : Thread) (r : Reg) (v : BitVec 64) : (t.wr r v).vtype = t.vtype := by unfold Thread.wr; split <;> rfl
@[simp] theorem Thread.wr_vl (t : Thread) (r : Reg) (v : BitVec 64) : (t.wr r v).vl = t.vl := by unfold Thread.wr; split <;> rfl
@[simp] theorem Thread.wr_splitC (t : Thread) (r : Reg) (v : BitVec 64) : (t.wr r v).splitC = t.splitC := by unfold Thread.wr; split <;> rfl
@[simp] theorem Thread.wr_lvd (t : Thread) (r : Reg) (v : BitVec 64) : (t.wr r v).lvd = t.lvd := by unfold Thread.wr; split <;> rfl
@[simp] theorem Thread.wr_nest (t : Thread) (r : Reg) (v : BitVec 64) : (t.wr r v).nest = t.nest := by unfold Thread.wr; split <;> rfl
@[simp] theorem Thread.wr_amo (t : Thread) (r : Reg) (v : BitVec 64) : (t.wr r v).amo = t.amo := by unfold Thread.wr; split <;> rfl
@[simp] theorem Thread.wr_vstart (t : Thread) (r : Reg) (v : BitVec 64) : (t.wr r v).vstart = t.vstart := by unfold Thread.wr; split <;> rfl
@[simp] theorem Thread.wr_splitV (t : Thread) (r : Reg) (v : BitVec 64) : (t.wr r v).splitV = t.splitV := by unfold Thread.wr; split <;> rfl
@[simp] theorem Thread.wr_queue (t : Thread) (r : Reg) (v : BitVec 64) : (t.wr r v).queue = t.queue := by unfold Thread.wr; split <;> rfl
@[simp] theorem Thread.wr_pushSeq (t : Thread) (r : Reg) (v : BitVec 64) : (t.wr r v).pushSeq = t.pushSeq := by unfold Thread.wr; split <;> rfl
@[simp] theorem Thread.wr_vreg (t : Thread) (r : Reg) (v : BitVec 64) : (t.wr r v).vreg = t.vreg := by unfold Thread.wr; split <;> rfl
@[simp] theorem Thread.wr_hw (t : Thread) (r : Reg) (v : BitVec 64) : (t.wr r v).hw = t.hw := by unfold Thread.wr; split <;> rfl
@[simp] theorem Thread.wr_m (t : Thread) (r : Reg) (v : BitVec 64) : (t.wr r v).m = t.m := by unfold Thread.wr; split <;> rfl
@[simp] theorem Thread.wr_chain (t : Thread) (r : Reg) (v : BitVec 64) : (t.wr r v).chain = t.chain := by unfold Thread.wr; split <;> rfl
@[simp] theorem Thread.wr_recording (t : Thread) (r : Reg) (v : BitVec 64) : (t.wr r v).recording = t.recording := by unfold Thread.wr; split <;> rfl
@[simp] theorem Thread.wr_replay (t : Thread) (r : Reg) (v : BitVec 64) : (t.wr r v).replay = t.replay := by unfold Thread.wr; split <;> rfl
@[simp] theorem Thread.wr_held (t : Thread) (r : Reg) (v : BitVec 64) : (t.wr r v).held = t.held := by unfold Thread.wr; split <;> rfl
@[simp] theorem Thread.wr_cb (t : Thread) (r : Reg) (v : BitVec 64) : (t.wr r v).cb = t.cb := by unfold Thread.wr; split <;> rfl
@[simp] theorem Thread.wr_treg (t : Thread) (r : Reg) (v : BitVec 64) : (t.wr r v).treg = t.treg := by unfold Thread.wr; split <;> rfl
@[simp] theorem Thread.wr_view0 (t : Thread) (r : Reg) (v : BitVec 64) : (t.wr r v).view0 = t.view0 := by unfold Thread.wr; split <;> rfl
@[simp] theorem Thread.wr_view1 (t : Thread) (r : Reg) (v : BitVec 64) : (t.wr r v).view1 = t.view1 := by unfold Thread.wr; split <;> rfl
@[simp] theorem Thread.wr_h0 (t : Thread) (r : Reg) (v : BitVec 64) : (t.wr r v).h0 = t.h0 := by unfold Thread.wr; split <;> rfl
@[simp] theorem Thread.wr_h1 (t : Thread) (r : Reg) (v : BitVec 64) : (t.wr r v).h1 = t.h1 := by unfold Thread.wr; split <;> rfl
@[simp] theorem Thread.wr_b (t : Thread) (r : Reg) (v : BitVec 64) : (t.wr r v).b = t.b := by unfold Thread.wr; split <;> rfl
@[simp] theorem Thread.wr_tree (t : Thread) (r : Reg) (v : BitVec 64) : (t.wr r v).tree = t.tree := by unfold Thread.wr; split <;> rfl
@[simp] theorem Thread.wr_treeAddr (t : Thread) (r : Reg) (v : BitVec 64) : (t.wr r v).treeAddr = t.treeAddr := by unfold Thread.wr; split <;> rfl
@[simp] theorem Thread.wr_n (t : Thread) (r : Reg) (v : BitVec 64) : (t.wr r v).n = t.n := by unfold Thread.wr; split <;> rfl
@[simp] theorem Thread.wr_f (t : Thread) (r : Reg) (v : BitVec 64) : (t.wr r v).f = t.f := by unfold Thread.wr; split <;> rfl
@[simp] theorem Thread.wr_streams (t : Thread) (r : Reg) (v : BitVec 64) : (t.wr r v).streams = t.streams := by unfold Thread.wr; split <;> rfl
@[simp] theorem Thread.wr_q (t : Thread) (r : Reg) (v : BitVec 64) : (t.wr r v).q = t.q := by unfold Thread.wr; split <;> rfl
@[simp] theorem Thread.wr_owed (t : Thread) (r : Reg) (v : BitVec 64) : (t.wr r v).owed = t.owed := by unfold Thread.wr; split <;> rfl
@[simp] theorem Thread.wr_tok (t : Thread) (r : Reg) (v : BitVec 64) : (t.wr r v).tok = t.tok := by unfold Thread.wr; split <;> rfl
@[simp] theorem Thread.wr_tokRes (t : Thread) (r : Reg) (v : BitVec 64) : (t.wr r v).tokRes = t.tokRes := by unfold Thread.wr; split <;> rfl
@[simp] theorem Thread.wr_comb (t : Thread) (r : Reg) (v : BitVec 64) : (t.wr r v).comb = t.comb := by unfold Thread.wr; split <;> rfl
@[simp] theorem Thread.wr_combVia (t : Thread) (r : Reg) (v : BitVec 64) : (t.wr r v).combVia = t.combVia := by unfold Thread.wr; split <;> rfl
@[simp] theorem Thread.wr_drainNo (t : Thread) (r : Reg) (v : BitVec 64) : (t.wr r v).drainNo = t.drainNo := by unfold Thread.wr; split <;> rfl
@[simp] theorem Thread.wr_draining (t : Thread) (r : Reg) (v : BitVec 64) : (t.wr r v).draining = t.draining := by unfold Thread.wr; split <;> rfl
@[simp] theorem Thread.wr_drainedAt (t : Thread) (r : Reg) (v : BitVec 64) : (t.wr r v).drainedAt = t.drainedAt := by unfold Thread.wr; split <;> rfl
@[simp] theorem Thread.wr_chOut (t : Thread) (r : Reg) (v : BitVec 64) : (t.wr r v).chOut = t.chOut := by unfold Thread.wr; split <;> rfl
@[simp] theorem Thread.wr_chStatus (t : Thread) (r : Reg) (v : BitVec 64) : (t.wr r v).chStatus = t.chStatus := by unfold Thread.wr; split <;> rfl
@[simp] theorem Thread.wr_chFlags (t : Thread) (r : Reg) (v : BitVec 64) : (t.wr r v).chFlags = t.chFlags := by unfold Thread.wr; split <;> rfl
@[simp] theorem Thread.wr_arrived (t : Thread) (r : Reg) (v : BitVec 64) : (t.wr r v).arrived = t.arrived := by unfold Thread.wr; split <;> rfl
@[simp] theorem Thread.wr_yieldFor (t : Thread) (r : Reg) (v : BitVec 64) : (t.wr r v).yieldFor = t.yieldFor := by unfold Thread.wr; split <;> rfl
@[simp] theorem Thread.wr_evict (t : Thread) (r : Reg) (v : BitVec 64) : (t.wr r v).evict = t.evict := by unfold Thread.wr; split <;> rfl
@[simp] theorem Thread.wr_lost (t : Thread) (r : Reg) (v : BitVec 64) : (t.wr r v).lost = t.lost := by unfold Thread.wr; split <;> rfl
@[simp] theorem Thread.wr_cbuf (t : Thread) (r : Reg) (v : BitVec 64) : (t.wr r v).cbuf = t.cbuf := by unfold Thread.wr; split <;> rfl
@[simp] theorem Thread.wr_cvia (t : Thread) (r : Reg) (v : BitVec 64) : (t.wr r v).cvia = t.cvia := by unfold Thread.wr; split <;> rfl
@[simp] theorem Thread.wr_pubV (t : Thread) (r : Reg) (v : BitVec 64) : (t.wr r v).pubV = t.pubV := by unfold Thread.wr; split <;> rfl
@[simp] theorem Thread.wr_vbuf (t : Thread) (r : Reg) (v : BitVec 64) : (t.wr r v).vbuf = t.vbuf := by unfold Thread.wr; split <;> rfl
@[simp] theorem Thread.wr_readyAt (t : Thread) (r : Reg) (v : BitVec 64) : (t.wr r v).readyAt = t.readyAt := by unfold Thread.wr; split <;> rfl
@[simp] theorem Thread.wr_workAt (t : Thread) (r : Reg) (v : BitVec 64) : (t.wr r v).workAt = t.workAt := by unfold Thread.wr; split <;> rfl

@[simp] theorem Thread.setQ_slot (t : Thread) (i : Nat) (v : QReg) : (t.setQ i v).slot = t.slot := rfl
@[simp] theorem Thread.setQ_part (t : Thread) (i : Nat) (v : QReg) : (t.setQ i v).part = t.part := rfl
@[simp] theorem Thread.setQ_launch (t : Thread) (i : Nat) (v : QReg) : (t.setQ i v).launch = t.launch := rfl
@[simp] theorem Thread.setQ_rank (t : Thread) (i : Nat) (v : QReg) : (t.setQ i v).rank = t.rank := rfl
@[simp] theorem Thread.setQ_run (t : Thread) (i : Nat) (v : QReg) : (t.setQ i v).run = t.run := rfl
@[simp] theorem Thread.setQ_pc (t : Thread) (i : Nat) (v : QReg) : (t.setQ i v).pc = t.pc := rfl
@[simp] theorem Thread.setQ_g (t : Thread) (i : Nat) (v : QReg) : (t.setQ i v).g = t.g := rfl
@[simp] theorem Thread.setQ_frm (t : Thread) (i : Nat) (v : QReg) : (t.setQ i v).frm = t.frm := rfl
@[simp] theorem Thread.setQ_xrm (t : Thread) (i : Nat) (v : QReg) : (t.setQ i v).xrm = t.xrm := rfl
@[simp] theorem Thread.setQ_fflags (t : Thread) (i : Nat) (v : QReg) : (t.setQ i v).fflags = t.fflags := rfl
@[simp] theorem Thread.setQ_sat (t : Thread) (i : Nat) (v : QReg) : (t.setQ i v).sat = t.sat := rfl
@[simp] theorem Thread.setQ_seed (t : Thread) (i : Nat) (v : QReg) : (t.setQ i v).seed = t.seed := rfl
@[simp] theorem Thread.setQ_carry (t : Thread) (i : Nat) (v : QReg) : (t.setQ i v).carry = t.carry := rfl
@[simp] theorem Thread.setQ_sup (t : Thread) (i : Nat) (v : QReg) : (t.setQ i v).sup = t.sup := rfl
@[simp] theorem Thread.setQ_vempty (t : Thread) (i : Nat) (v : QReg) : (t.setQ i v).vempty = t.vempty := rfl
@[simp] theorem Thread.setQ_det (t : Thread) (i : Nat) (v : QReg) : (t.setQ i v).det = t.det := rfl
@[simp] theorem Thread.setQ_pe (t : Thread) (i : Nat) (v : QReg) : (t.setQ i v).pe = t.pe := rfl
@[simp] theorem Thread.setQ_prioMax (t : Thread) (i : Nat) (v : QReg) : (t.setQ i v).prioMax = t.prioMax := rfl
@[simp] theorem Thread.setQ_level (t : Thread) (i : Nat) (v : QReg) : (t.setQ i v).level = t.level := rfl
@[simp] theorem Thread.setQ_weight (t : Thread) (i : Nat) (v : QReg) : (t.setQ i v).weight = t.weight := rfl
@[simp] theorem Thread.setQ_aspace (t : Thread) (i : Nat) (v : QReg) : (t.setQ i v).aspace = t.aspace := rfl
@[simp] theorem Thread.setQ_vtype (t : Thread) (i : Nat) (v : QReg) : (t.setQ i v).vtype = t.vtype := rfl
@[simp] theorem Thread.setQ_vl (t : Thread) (i : Nat) (v : QReg) : (t.setQ i v).vl = t.vl := rfl
@[simp] theorem Thread.setQ_splitC (t : Thread) (i : Nat) (v : QReg) : (t.setQ i v).splitC = t.splitC := rfl
@[simp] theorem Thread.setQ_lvd (t : Thread) (i : Nat) (v : QReg) : (t.setQ i v).lvd = t.lvd := rfl
@[simp] theorem Thread.setQ_nest (t : Thread) (i : Nat) (v : QReg) : (t.setQ i v).nest = t.nest := rfl
@[simp] theorem Thread.setQ_amo (t : Thread) (i : Nat) (v : QReg) : (t.setQ i v).amo = t.amo := rfl
@[simp] theorem Thread.setQ_vstart (t : Thread) (i : Nat) (v : QReg) : (t.setQ i v).vstart = t.vstart := rfl
@[simp] theorem Thread.setQ_splitV (t : Thread) (i : Nat) (v : QReg) : (t.setQ i v).splitV = t.splitV := rfl
@[simp] theorem Thread.setQ_queue (t : Thread) (i : Nat) (v : QReg) : (t.setQ i v).queue = t.queue := rfl
@[simp] theorem Thread.setQ_pushSeq (t : Thread) (i : Nat) (v : QReg) : (t.setQ i v).pushSeq = t.pushSeq := rfl
@[simp] theorem Thread.setQ_vreg (t : Thread) (i : Nat) (v : QReg) : (t.setQ i v).vreg = t.vreg := rfl
@[simp] theorem Thread.setQ_hw (t : Thread) (i : Nat) (v : QReg) : (t.setQ i v).hw = t.hw := rfl
@[simp] theorem Thread.setQ_m (t : Thread) (i : Nat) (v : QReg) : (t.setQ i v).m = t.m := rfl
@[simp] theorem Thread.setQ_chain (t : Thread) (i : Nat) (v : QReg) : (t.setQ i v).chain = t.chain := rfl
@[simp] theorem Thread.setQ_recording (t : Thread) (i : Nat) (v : QReg) : (t.setQ i v).recording = t.recording := rfl
@[simp] theorem Thread.setQ_replay (t : Thread) (i : Nat) (v : QReg) : (t.setQ i v).replay = t.replay := rfl
@[simp] theorem Thread.setQ_held (t : Thread) (i : Nat) (v : QReg) : (t.setQ i v).held = t.held := rfl
@[simp] theorem Thread.setQ_cb (t : Thread) (i : Nat) (v : QReg) : (t.setQ i v).cb = t.cb := rfl
@[simp] theorem Thread.setQ_treg (t : Thread) (i : Nat) (v : QReg) : (t.setQ i v).treg = t.treg := rfl
@[simp] theorem Thread.setQ_view0 (t : Thread) (i : Nat) (v : QReg) : (t.setQ i v).view0 = t.view0 := rfl
@[simp] theorem Thread.setQ_view1 (t : Thread) (i : Nat) (v : QReg) : (t.setQ i v).view1 = t.view1 := rfl
@[simp] theorem Thread.setQ_h0 (t : Thread) (i : Nat) (v : QReg) : (t.setQ i v).h0 = t.h0 := rfl
@[simp] theorem Thread.setQ_h1 (t : Thread) (i : Nat) (v : QReg) : (t.setQ i v).h1 = t.h1 := rfl
@[simp] theorem Thread.setQ_b (t : Thread) (i : Nat) (v : QReg) : (t.setQ i v).b = t.b := rfl
@[simp] theorem Thread.setQ_tree (t : Thread) (i : Nat) (v : QReg) : (t.setQ i v).tree = t.tree := rfl
@[simp] theorem Thread.setQ_treeAddr (t : Thread) (i : Nat) (v : QReg) : (t.setQ i v).treeAddr = t.treeAddr := rfl
@[simp] theorem Thread.setQ_n (t : Thread) (i : Nat) (v : QReg) : (t.setQ i v).n = t.n := rfl
@[simp] theorem Thread.setQ_f (t : Thread) (i : Nat) (v : QReg) : (t.setQ i v).f = t.f := rfl
@[simp] theorem Thread.setQ_streams (t : Thread) (i : Nat) (v : QReg) : (t.setQ i v).streams = t.streams := rfl
@[simp] theorem Thread.setQ_owed (t : Thread) (i : Nat) (v : QReg) : (t.setQ i v).owed = t.owed := rfl
@[simp] theorem Thread.setQ_tok (t : Thread) (i : Nat) (v : QReg) : (t.setQ i v).tok = t.tok := rfl
@[simp] theorem Thread.setQ_tokRes (t : Thread) (i : Nat) (v : QReg) : (t.setQ i v).tokRes = t.tokRes := rfl
@[simp] theorem Thread.setQ_comb (t : Thread) (i : Nat) (v : QReg) : (t.setQ i v).comb = t.comb := rfl
@[simp] theorem Thread.setQ_combVia (t : Thread) (i : Nat) (v : QReg) : (t.setQ i v).combVia = t.combVia := rfl
@[simp] theorem Thread.setQ_drainNo (t : Thread) (i : Nat) (v : QReg) : (t.setQ i v).drainNo = t.drainNo := rfl
@[simp] theorem Thread.setQ_draining (t : Thread) (i : Nat) (v : QReg) : (t.setQ i v).draining = t.draining := rfl
@[simp] theorem Thread.setQ_drainedAt (t : Thread) (i : Nat) (v : QReg) : (t.setQ i v).drainedAt = t.drainedAt := rfl
@[simp] theorem Thread.setQ_chOut (t : Thread) (i : Nat) (v : QReg) : (t.setQ i v).chOut = t.chOut := rfl
@[simp] theorem Thread.setQ_chStatus (t : Thread) (i : Nat) (v : QReg) : (t.setQ i v).chStatus = t.chStatus := rfl
@[simp] theorem Thread.setQ_chFlags (t : Thread) (i : Nat) (v : QReg) : (t.setQ i v).chFlags = t.chFlags := rfl
@[simp] theorem Thread.setQ_arrived (t : Thread) (i : Nat) (v : QReg) : (t.setQ i v).arrived = t.arrived := rfl
@[simp] theorem Thread.setQ_yieldFor (t : Thread) (i : Nat) (v : QReg) : (t.setQ i v).yieldFor = t.yieldFor := rfl
@[simp] theorem Thread.setQ_evict (t : Thread) (i : Nat) (v : QReg) : (t.setQ i v).evict = t.evict := rfl
@[simp] theorem Thread.setQ_lost (t : Thread) (i : Nat) (v : QReg) : (t.setQ i v).lost = t.lost := rfl
@[simp] theorem Thread.setQ_cbuf (t : Thread) (i : Nat) (v : QReg) : (t.setQ i v).cbuf = t.cbuf := rfl
@[simp] theorem Thread.setQ_cvia (t : Thread) (i : Nat) (v : QReg) : (t.setQ i v).cvia = t.cvia := rfl
@[simp] theorem Thread.setQ_pubV (t : Thread) (i : Nat) (v : QReg) : (t.setQ i v).pubV = t.pubV := rfl
@[simp] theorem Thread.setQ_vbuf (t : Thread) (i : Nat) (v : QReg) : (t.setQ i v).vbuf = t.vbuf := rfl
@[simp] theorem Thread.setQ_readyAt (t : Thread) (i : Nat) (v : QReg) : (t.setQ i v).readyAt = t.readyAt := rfl
@[simp] theorem Thread.setQ_workAt (t : Thread) (i : Nat) (v : QReg) : (t.setQ i v).workAt = t.workAt := rfl

@[simp] theorem Thread.popQs_slot (t : Thread) (l : List Nat) : (t.popQs l).slot = t.slot := by
  induction l generalizing t with
  | nil => rfl
  | cons i is ih => exact (ih _).trans rfl
@[simp] theorem Thread.popQs_part (t : Thread) (l : List Nat) : (t.popQs l).part = t.part := by
  induction l generalizing t with
  | nil => rfl
  | cons i is ih => exact (ih _).trans rfl
@[simp] theorem Thread.popQs_launch (t : Thread) (l : List Nat) : (t.popQs l).launch = t.launch := by
  induction l generalizing t with
  | nil => rfl
  | cons i is ih => exact (ih _).trans rfl
@[simp] theorem Thread.popQs_rank (t : Thread) (l : List Nat) : (t.popQs l).rank = t.rank := by
  induction l generalizing t with
  | nil => rfl
  | cons i is ih => exact (ih _).trans rfl
@[simp] theorem Thread.popQs_run (t : Thread) (l : List Nat) : (t.popQs l).run = t.run := by
  induction l generalizing t with
  | nil => rfl
  | cons i is ih => exact (ih _).trans rfl
@[simp] theorem Thread.popQs_pc (t : Thread) (l : List Nat) : (t.popQs l).pc = t.pc := by
  induction l generalizing t with
  | nil => rfl
  | cons i is ih => exact (ih _).trans rfl
@[simp] theorem Thread.popQs_g (t : Thread) (l : List Nat) : (t.popQs l).g = t.g := by
  induction l generalizing t with
  | nil => rfl
  | cons i is ih => exact (ih _).trans rfl
@[simp] theorem Thread.popQs_frm (t : Thread) (l : List Nat) : (t.popQs l).frm = t.frm := by
  induction l generalizing t with
  | nil => rfl
  | cons i is ih => exact (ih _).trans rfl
@[simp] theorem Thread.popQs_xrm (t : Thread) (l : List Nat) : (t.popQs l).xrm = t.xrm := by
  induction l generalizing t with
  | nil => rfl
  | cons i is ih => exact (ih _).trans rfl
@[simp] theorem Thread.popQs_fflags (t : Thread) (l : List Nat) : (t.popQs l).fflags = t.fflags := by
  induction l generalizing t with
  | nil => rfl
  | cons i is ih => exact (ih _).trans rfl
@[simp] theorem Thread.popQs_sat (t : Thread) (l : List Nat) : (t.popQs l).sat = t.sat := by
  induction l generalizing t with
  | nil => rfl
  | cons i is ih => exact (ih _).trans rfl
@[simp] theorem Thread.popQs_seed (t : Thread) (l : List Nat) : (t.popQs l).seed = t.seed := by
  induction l generalizing t with
  | nil => rfl
  | cons i is ih => exact (ih _).trans rfl
@[simp] theorem Thread.popQs_carry (t : Thread) (l : List Nat) : (t.popQs l).carry = t.carry := by
  induction l generalizing t with
  | nil => rfl
  | cons i is ih => exact (ih _).trans rfl
@[simp] theorem Thread.popQs_sup (t : Thread) (l : List Nat) : (t.popQs l).sup = t.sup := by
  induction l generalizing t with
  | nil => rfl
  | cons i is ih => exact (ih _).trans rfl
@[simp] theorem Thread.popQs_vempty (t : Thread) (l : List Nat) : (t.popQs l).vempty = t.vempty := by
  induction l generalizing t with
  | nil => rfl
  | cons i is ih => exact (ih _).trans rfl
@[simp] theorem Thread.popQs_det (t : Thread) (l : List Nat) : (t.popQs l).det = t.det := by
  induction l generalizing t with
  | nil => rfl
  | cons i is ih => exact (ih _).trans rfl
@[simp] theorem Thread.popQs_pe (t : Thread) (l : List Nat) : (t.popQs l).pe = t.pe := by
  induction l generalizing t with
  | nil => rfl
  | cons i is ih => exact (ih _).trans rfl
@[simp] theorem Thread.popQs_prioMax (t : Thread) (l : List Nat) : (t.popQs l).prioMax = t.prioMax := by
  induction l generalizing t with
  | nil => rfl
  | cons i is ih => exact (ih _).trans rfl
@[simp] theorem Thread.popQs_level (t : Thread) (l : List Nat) : (t.popQs l).level = t.level := by
  induction l generalizing t with
  | nil => rfl
  | cons i is ih => exact (ih _).trans rfl
@[simp] theorem Thread.popQs_weight (t : Thread) (l : List Nat) : (t.popQs l).weight = t.weight := by
  induction l generalizing t with
  | nil => rfl
  | cons i is ih => exact (ih _).trans rfl
@[simp] theorem Thread.popQs_aspace (t : Thread) (l : List Nat) : (t.popQs l).aspace = t.aspace := by
  induction l generalizing t with
  | nil => rfl
  | cons i is ih => exact (ih _).trans rfl
@[simp] theorem Thread.popQs_vtype (t : Thread) (l : List Nat) : (t.popQs l).vtype = t.vtype := by
  induction l generalizing t with
  | nil => rfl
  | cons i is ih => exact (ih _).trans rfl
@[simp] theorem Thread.popQs_vl (t : Thread) (l : List Nat) : (t.popQs l).vl = t.vl := by
  induction l generalizing t with
  | nil => rfl
  | cons i is ih => exact (ih _).trans rfl
@[simp] theorem Thread.popQs_splitC (t : Thread) (l : List Nat) : (t.popQs l).splitC = t.splitC := by
  induction l generalizing t with
  | nil => rfl
  | cons i is ih => exact (ih _).trans rfl
@[simp] theorem Thread.popQs_lvd (t : Thread) (l : List Nat) : (t.popQs l).lvd = t.lvd := by
  induction l generalizing t with
  | nil => rfl
  | cons i is ih => exact (ih _).trans rfl
@[simp] theorem Thread.popQs_nest (t : Thread) (l : List Nat) : (t.popQs l).nest = t.nest := by
  induction l generalizing t with
  | nil => rfl
  | cons i is ih => exact (ih _).trans rfl
@[simp] theorem Thread.popQs_amo (t : Thread) (l : List Nat) : (t.popQs l).amo = t.amo := by
  induction l generalizing t with
  | nil => rfl
  | cons i is ih => exact (ih _).trans rfl
@[simp] theorem Thread.popQs_vstart (t : Thread) (l : List Nat) : (t.popQs l).vstart = t.vstart := by
  induction l generalizing t with
  | nil => rfl
  | cons i is ih => exact (ih _).trans rfl
@[simp] theorem Thread.popQs_splitV (t : Thread) (l : List Nat) : (t.popQs l).splitV = t.splitV := by
  induction l generalizing t with
  | nil => rfl
  | cons i is ih => exact (ih _).trans rfl
@[simp] theorem Thread.popQs_queue (t : Thread) (l : List Nat) : (t.popQs l).queue = t.queue := by
  induction l generalizing t with
  | nil => rfl
  | cons i is ih => exact (ih _).trans rfl
@[simp] theorem Thread.popQs_pushSeq (t : Thread) (l : List Nat) : (t.popQs l).pushSeq = t.pushSeq := by
  induction l generalizing t with
  | nil => rfl
  | cons i is ih => exact (ih _).trans rfl
@[simp] theorem Thread.popQs_vreg (t : Thread) (l : List Nat) : (t.popQs l).vreg = t.vreg := by
  induction l generalizing t with
  | nil => rfl
  | cons i is ih => exact (ih _).trans rfl
@[simp] theorem Thread.popQs_hw (t : Thread) (l : List Nat) : (t.popQs l).hw = t.hw := by
  induction l generalizing t with
  | nil => rfl
  | cons i is ih => exact (ih _).trans rfl
@[simp] theorem Thread.popQs_m (t : Thread) (l : List Nat) : (t.popQs l).m = t.m := by
  induction l generalizing t with
  | nil => rfl
  | cons i is ih => exact (ih _).trans rfl
@[simp] theorem Thread.popQs_chain (t : Thread) (l : List Nat) : (t.popQs l).chain = t.chain := by
  induction l generalizing t with
  | nil => rfl
  | cons i is ih => exact (ih _).trans rfl
@[simp] theorem Thread.popQs_recording (t : Thread) (l : List Nat) : (t.popQs l).recording = t.recording := by
  induction l generalizing t with
  | nil => rfl
  | cons i is ih => exact (ih _).trans rfl
@[simp] theorem Thread.popQs_replay (t : Thread) (l : List Nat) : (t.popQs l).replay = t.replay := by
  induction l generalizing t with
  | nil => rfl
  | cons i is ih => exact (ih _).trans rfl
@[simp] theorem Thread.popQs_held (t : Thread) (l : List Nat) : (t.popQs l).held = t.held := by
  induction l generalizing t with
  | nil => rfl
  | cons i is ih => exact (ih _).trans rfl
@[simp] theorem Thread.popQs_cb (t : Thread) (l : List Nat) : (t.popQs l).cb = t.cb := by
  induction l generalizing t with
  | nil => rfl
  | cons i is ih => exact (ih _).trans rfl
@[simp] theorem Thread.popQs_treg (t : Thread) (l : List Nat) : (t.popQs l).treg = t.treg := by
  induction l generalizing t with
  | nil => rfl
  | cons i is ih => exact (ih _).trans rfl
@[simp] theorem Thread.popQs_view0 (t : Thread) (l : List Nat) : (t.popQs l).view0 = t.view0 := by
  induction l generalizing t with
  | nil => rfl
  | cons i is ih => exact (ih _).trans rfl
@[simp] theorem Thread.popQs_view1 (t : Thread) (l : List Nat) : (t.popQs l).view1 = t.view1 := by
  induction l generalizing t with
  | nil => rfl
  | cons i is ih => exact (ih _).trans rfl
@[simp] theorem Thread.popQs_h0 (t : Thread) (l : List Nat) : (t.popQs l).h0 = t.h0 := by
  induction l generalizing t with
  | nil => rfl
  | cons i is ih => exact (ih _).trans rfl
@[simp] theorem Thread.popQs_h1 (t : Thread) (l : List Nat) : (t.popQs l).h1 = t.h1 := by
  induction l generalizing t with
  | nil => rfl
  | cons i is ih => exact (ih _).trans rfl
@[simp] theorem Thread.popQs_b (t : Thread) (l : List Nat) : (t.popQs l).b = t.b := by
  induction l generalizing t with
  | nil => rfl
  | cons i is ih => exact (ih _).trans rfl
@[simp] theorem Thread.popQs_tree (t : Thread) (l : List Nat) : (t.popQs l).tree = t.tree := by
  induction l generalizing t with
  | nil => rfl
  | cons i is ih => exact (ih _).trans rfl
@[simp] theorem Thread.popQs_treeAddr (t : Thread) (l : List Nat) : (t.popQs l).treeAddr = t.treeAddr := by
  induction l generalizing t with
  | nil => rfl
  | cons i is ih => exact (ih _).trans rfl
@[simp] theorem Thread.popQs_n (t : Thread) (l : List Nat) : (t.popQs l).n = t.n := by
  induction l generalizing t with
  | nil => rfl
  | cons i is ih => exact (ih _).trans rfl
@[simp] theorem Thread.popQs_f (t : Thread) (l : List Nat) : (t.popQs l).f = t.f := by
  induction l generalizing t with
  | nil => rfl
  | cons i is ih => exact (ih _).trans rfl
@[simp] theorem Thread.popQs_streams (t : Thread) (l : List Nat) : (t.popQs l).streams = t.streams := by
  induction l generalizing t with
  | nil => rfl
  | cons i is ih => exact (ih _).trans rfl
@[simp] theorem Thread.popQs_owed (t : Thread) (l : List Nat) : (t.popQs l).owed = t.owed := by
  induction l generalizing t with
  | nil => rfl
  | cons i is ih => exact (ih _).trans rfl
@[simp] theorem Thread.popQs_tok (t : Thread) (l : List Nat) : (t.popQs l).tok = t.tok := by
  induction l generalizing t with
  | nil => rfl
  | cons i is ih => exact (ih _).trans rfl
@[simp] theorem Thread.popQs_tokRes (t : Thread) (l : List Nat) : (t.popQs l).tokRes = t.tokRes := by
  induction l generalizing t with
  | nil => rfl
  | cons i is ih => exact (ih _).trans rfl
@[simp] theorem Thread.popQs_comb (t : Thread) (l : List Nat) : (t.popQs l).comb = t.comb := by
  induction l generalizing t with
  | nil => rfl
  | cons i is ih => exact (ih _).trans rfl
@[simp] theorem Thread.popQs_combVia (t : Thread) (l : List Nat) : (t.popQs l).combVia = t.combVia := by
  induction l generalizing t with
  | nil => rfl
  | cons i is ih => exact (ih _).trans rfl
@[simp] theorem Thread.popQs_drainNo (t : Thread) (l : List Nat) : (t.popQs l).drainNo = t.drainNo := by
  induction l generalizing t with
  | nil => rfl
  | cons i is ih => exact (ih _).trans rfl
@[simp] theorem Thread.popQs_draining (t : Thread) (l : List Nat) : (t.popQs l).draining = t.draining := by
  induction l generalizing t with
  | nil => rfl
  | cons i is ih => exact (ih _).trans rfl
@[simp] theorem Thread.popQs_drainedAt (t : Thread) (l : List Nat) : (t.popQs l).drainedAt = t.drainedAt := by
  induction l generalizing t with
  | nil => rfl
  | cons i is ih => exact (ih _).trans rfl
@[simp] theorem Thread.popQs_chOut (t : Thread) (l : List Nat) : (t.popQs l).chOut = t.chOut := by
  induction l generalizing t with
  | nil => rfl
  | cons i is ih => exact (ih _).trans rfl
@[simp] theorem Thread.popQs_chStatus (t : Thread) (l : List Nat) : (t.popQs l).chStatus = t.chStatus := by
  induction l generalizing t with
  | nil => rfl
  | cons i is ih => exact (ih _).trans rfl
@[simp] theorem Thread.popQs_chFlags (t : Thread) (l : List Nat) : (t.popQs l).chFlags = t.chFlags := by
  induction l generalizing t with
  | nil => rfl
  | cons i is ih => exact (ih _).trans rfl
@[simp] theorem Thread.popQs_arrived (t : Thread) (l : List Nat) : (t.popQs l).arrived = t.arrived := by
  induction l generalizing t with
  | nil => rfl
  | cons i is ih => exact (ih _).trans rfl
@[simp] theorem Thread.popQs_yieldFor (t : Thread) (l : List Nat) : (t.popQs l).yieldFor = t.yieldFor := by
  induction l generalizing t with
  | nil => rfl
  | cons i is ih => exact (ih _).trans rfl
@[simp] theorem Thread.popQs_evict (t : Thread) (l : List Nat) : (t.popQs l).evict = t.evict := by
  induction l generalizing t with
  | nil => rfl
  | cons i is ih => exact (ih _).trans rfl
@[simp] theorem Thread.popQs_lost (t : Thread) (l : List Nat) : (t.popQs l).lost = t.lost := by
  induction l generalizing t with
  | nil => rfl
  | cons i is ih => exact (ih _).trans rfl
@[simp] theorem Thread.popQs_cbuf (t : Thread) (l : List Nat) : (t.popQs l).cbuf = t.cbuf := by
  induction l generalizing t with
  | nil => rfl
  | cons i is ih => exact (ih _).trans rfl
@[simp] theorem Thread.popQs_cvia (t : Thread) (l : List Nat) : (t.popQs l).cvia = t.cvia := by
  induction l generalizing t with
  | nil => rfl
  | cons i is ih => exact (ih _).trans rfl
@[simp] theorem Thread.popQs_pubV (t : Thread) (l : List Nat) : (t.popQs l).pubV = t.pubV := by
  induction l generalizing t with
  | nil => rfl
  | cons i is ih => exact (ih _).trans rfl
@[simp] theorem Thread.popQs_vbuf (t : Thread) (l : List Nat) : (t.popQs l).vbuf = t.vbuf := by
  induction l generalizing t with
  | nil => rfl
  | cons i is ih => exact (ih _).trans rfl
@[simp] theorem Thread.popQs_readyAt (t : Thread) (l : List Nat) : (t.popQs l).readyAt = t.readyAt := by
  induction l generalizing t with
  | nil => rfl
  | cons i is ih => exact (ih _).trans rfl
@[simp] theorem Thread.popQs_workAt (t : Thread) (l : List Nat) : (t.popQs l).workAt = t.workAt := by
  induction l generalizing t with
  | nil => rfl
  | cons i is ih => exact (ih _).trans rfl

@[simp] theorem Thread.result_slot (t : Thread) (r : Reg) (v : BitVec 64) : (t.result r v).slot = t.slot := by unfold Thread.result; split <;> simp
@[simp] theorem Thread.result_part (t : Thread) (r : Reg) (v : BitVec 64) : (t.result r v).part = t.part := by unfold Thread.result; split <;> simp
@[simp] theorem Thread.result_launch (t : Thread) (r : Reg) (v : BitVec 64) : (t.result r v).launch = t.launch := by unfold Thread.result; split <;> simp
@[simp] theorem Thread.result_rank (t : Thread) (r : Reg) (v : BitVec 64) : (t.result r v).rank = t.rank := by unfold Thread.result; split <;> simp
@[simp] theorem Thread.result_run (t : Thread) (r : Reg) (v : BitVec 64) : (t.result r v).run = t.run := by unfold Thread.result; split <;> simp
@[simp] theorem Thread.result_pc (t : Thread) (r : Reg) (v : BitVec 64) : (t.result r v).pc = t.pc := by unfold Thread.result; split <;> simp
@[simp] theorem Thread.result_frm (t : Thread) (r : Reg) (v : BitVec 64) : (t.result r v).frm = t.frm := by unfold Thread.result; split <;> simp
@[simp] theorem Thread.result_xrm (t : Thread) (r : Reg) (v : BitVec 64) : (t.result r v).xrm = t.xrm := by unfold Thread.result; split <;> simp
@[simp] theorem Thread.result_fflags (t : Thread) (r : Reg) (v : BitVec 64) : (t.result r v).fflags = t.fflags := by unfold Thread.result; split <;> simp
@[simp] theorem Thread.result_sat (t : Thread) (r : Reg) (v : BitVec 64) : (t.result r v).sat = t.sat := by unfold Thread.result; split <;> simp
@[simp] theorem Thread.result_seed (t : Thread) (r : Reg) (v : BitVec 64) : (t.result r v).seed = t.seed := by unfold Thread.result; split <;> simp
@[simp] theorem Thread.result_carry (t : Thread) (r : Reg) (v : BitVec 64) : (t.result r v).carry = t.carry := by unfold Thread.result; split <;> simp
@[simp] theorem Thread.result_sup (t : Thread) (r : Reg) (v : BitVec 64) : (t.result r v).sup = t.sup := by unfold Thread.result; split <;> simp
@[simp] theorem Thread.result_vempty (t : Thread) (r : Reg) (v : BitVec 64) : (t.result r v).vempty = t.vempty := by unfold Thread.result; split <;> simp
@[simp] theorem Thread.result_det (t : Thread) (r : Reg) (v : BitVec 64) : (t.result r v).det = t.det := by unfold Thread.result; split <;> simp
@[simp] theorem Thread.result_pe (t : Thread) (r : Reg) (v : BitVec 64) : (t.result r v).pe = t.pe := by unfold Thread.result; split <;> simp
@[simp] theorem Thread.result_prioMax (t : Thread) (r : Reg) (v : BitVec 64) : (t.result r v).prioMax = t.prioMax := by unfold Thread.result; split <;> simp
@[simp] theorem Thread.result_level (t : Thread) (r : Reg) (v : BitVec 64) : (t.result r v).level = t.level := by unfold Thread.result; split <;> simp
@[simp] theorem Thread.result_weight (t : Thread) (r : Reg) (v : BitVec 64) : (t.result r v).weight = t.weight := by unfold Thread.result; split <;> simp
@[simp] theorem Thread.result_aspace (t : Thread) (r : Reg) (v : BitVec 64) : (t.result r v).aspace = t.aspace := by unfold Thread.result; split <;> simp
@[simp] theorem Thread.result_vtype (t : Thread) (r : Reg) (v : BitVec 64) : (t.result r v).vtype = t.vtype := by unfold Thread.result; split <;> simp
@[simp] theorem Thread.result_vl (t : Thread) (r : Reg) (v : BitVec 64) : (t.result r v).vl = t.vl := by unfold Thread.result; split <;> simp
@[simp] theorem Thread.result_splitC (t : Thread) (r : Reg) (v : BitVec 64) : (t.result r v).splitC = t.splitC := by unfold Thread.result; split <;> simp
@[simp] theorem Thread.result_lvd (t : Thread) (r : Reg) (v : BitVec 64) : (t.result r v).lvd = t.lvd := by unfold Thread.result; split <;> simp
@[simp] theorem Thread.result_nest (t : Thread) (r : Reg) (v : BitVec 64) : (t.result r v).nest = t.nest := by unfold Thread.result; split <;> simp
@[simp] theorem Thread.result_amo (t : Thread) (r : Reg) (v : BitVec 64) : (t.result r v).amo = t.amo := by unfold Thread.result; split <;> simp
@[simp] theorem Thread.result_vstart (t : Thread) (r : Reg) (v : BitVec 64) : (t.result r v).vstart = t.vstart := by unfold Thread.result; split <;> simp
@[simp] theorem Thread.result_splitV (t : Thread) (r : Reg) (v : BitVec 64) : (t.result r v).splitV = t.splitV := by unfold Thread.result; split <;> simp
@[simp] theorem Thread.result_queue (t : Thread) (r : Reg) (v : BitVec 64) : (t.result r v).queue = t.queue := by unfold Thread.result; split <;> simp
@[simp] theorem Thread.result_pushSeq (t : Thread) (r : Reg) (v : BitVec 64) : (t.result r v).pushSeq = t.pushSeq := by unfold Thread.result; split <;> simp
@[simp] theorem Thread.result_vreg (t : Thread) (r : Reg) (v : BitVec 64) : (t.result r v).vreg = t.vreg := by unfold Thread.result; split <;> simp
@[simp] theorem Thread.result_hw (t : Thread) (r : Reg) (v : BitVec 64) : (t.result r v).hw = t.hw := by unfold Thread.result; split <;> simp
@[simp] theorem Thread.result_m (t : Thread) (r : Reg) (v : BitVec 64) : (t.result r v).m = t.m := by unfold Thread.result; split <;> simp
@[simp] theorem Thread.result_chain (t : Thread) (r : Reg) (v : BitVec 64) : (t.result r v).chain = t.chain := by unfold Thread.result; split <;> simp
@[simp] theorem Thread.result_recording (t : Thread) (r : Reg) (v : BitVec 64) : (t.result r v).recording = t.recording := by unfold Thread.result; split <;> simp
@[simp] theorem Thread.result_replay (t : Thread) (r : Reg) (v : BitVec 64) : (t.result r v).replay = t.replay := by unfold Thread.result; split <;> simp
@[simp] theorem Thread.result_held (t : Thread) (r : Reg) (v : BitVec 64) : (t.result r v).held = t.held := by unfold Thread.result; split <;> simp
@[simp] theorem Thread.result_cb (t : Thread) (r : Reg) (v : BitVec 64) : (t.result r v).cb = t.cb := by unfold Thread.result; split <;> simp
@[simp] theorem Thread.result_treg (t : Thread) (r : Reg) (v : BitVec 64) : (t.result r v).treg = t.treg := by unfold Thread.result; split <;> simp
@[simp] theorem Thread.result_view0 (t : Thread) (r : Reg) (v : BitVec 64) : (t.result r v).view0 = t.view0 := by unfold Thread.result; split <;> simp
@[simp] theorem Thread.result_view1 (t : Thread) (r : Reg) (v : BitVec 64) : (t.result r v).view1 = t.view1 := by unfold Thread.result; split <;> simp
@[simp] theorem Thread.result_h0 (t : Thread) (r : Reg) (v : BitVec 64) : (t.result r v).h0 = t.h0 := by unfold Thread.result; split <;> simp
@[simp] theorem Thread.result_h1 (t : Thread) (r : Reg) (v : BitVec 64) : (t.result r v).h1 = t.h1 := by unfold Thread.result; split <;> simp
@[simp] theorem Thread.result_b (t : Thread) (r : Reg) (v : BitVec 64) : (t.result r v).b = t.b := by unfold Thread.result; split <;> simp
@[simp] theorem Thread.result_tree (t : Thread) (r : Reg) (v : BitVec 64) : (t.result r v).tree = t.tree := by unfold Thread.result; split <;> simp
@[simp] theorem Thread.result_treeAddr (t : Thread) (r : Reg) (v : BitVec 64) : (t.result r v).treeAddr = t.treeAddr := by unfold Thread.result; split <;> simp
@[simp] theorem Thread.result_n (t : Thread) (r : Reg) (v : BitVec 64) : (t.result r v).n = t.n := by unfold Thread.result; split <;> simp
@[simp] theorem Thread.result_f (t : Thread) (r : Reg) (v : BitVec 64) : (t.result r v).f = t.f := by unfold Thread.result; split <;> simp
@[simp] theorem Thread.result_streams (t : Thread) (r : Reg) (v : BitVec 64) : (t.result r v).streams = t.streams := by unfold Thread.result; split <;> simp
@[simp] theorem Thread.result_owed (t : Thread) (r : Reg) (v : BitVec 64) : (t.result r v).owed = t.owed := by unfold Thread.result; split <;> simp
@[simp] theorem Thread.result_tok (t : Thread) (r : Reg) (v : BitVec 64) : (t.result r v).tok = t.tok := by unfold Thread.result; split <;> simp
@[simp] theorem Thread.result_tokRes (t : Thread) (r : Reg) (v : BitVec 64) : (t.result r v).tokRes = t.tokRes := by unfold Thread.result; split <;> simp
@[simp] theorem Thread.result_comb (t : Thread) (r : Reg) (v : BitVec 64) : (t.result r v).comb = t.comb := by unfold Thread.result; split <;> simp
@[simp] theorem Thread.result_combVia (t : Thread) (r : Reg) (v : BitVec 64) : (t.result r v).combVia = t.combVia := by unfold Thread.result; split <;> simp
@[simp] theorem Thread.result_drainNo (t : Thread) (r : Reg) (v : BitVec 64) : (t.result r v).drainNo = t.drainNo := by unfold Thread.result; split <;> simp
@[simp] theorem Thread.result_draining (t : Thread) (r : Reg) (v : BitVec 64) : (t.result r v).draining = t.draining := by unfold Thread.result; split <;> simp
@[simp] theorem Thread.result_drainedAt (t : Thread) (r : Reg) (v : BitVec 64) : (t.result r v).drainedAt = t.drainedAt := by unfold Thread.result; split <;> simp
@[simp] theorem Thread.result_chOut (t : Thread) (r : Reg) (v : BitVec 64) : (t.result r v).chOut = t.chOut := by unfold Thread.result; split <;> simp
@[simp] theorem Thread.result_chStatus (t : Thread) (r : Reg) (v : BitVec 64) : (t.result r v).chStatus = t.chStatus := by unfold Thread.result; split <;> simp
@[simp] theorem Thread.result_chFlags (t : Thread) (r : Reg) (v : BitVec 64) : (t.result r v).chFlags = t.chFlags := by unfold Thread.result; split <;> simp
@[simp] theorem Thread.result_arrived (t : Thread) (r : Reg) (v : BitVec 64) : (t.result r v).arrived = t.arrived := by unfold Thread.result; split <;> simp
@[simp] theorem Thread.result_yieldFor (t : Thread) (r : Reg) (v : BitVec 64) : (t.result r v).yieldFor = t.yieldFor := by unfold Thread.result; split <;> simp
@[simp] theorem Thread.result_evict (t : Thread) (r : Reg) (v : BitVec 64) : (t.result r v).evict = t.evict := by unfold Thread.result; split <;> simp
@[simp] theorem Thread.result_lost (t : Thread) (r : Reg) (v : BitVec 64) : (t.result r v).lost = t.lost := by unfold Thread.result; split <;> simp
@[simp] theorem Thread.result_cbuf (t : Thread) (r : Reg) (v : BitVec 64) : (t.result r v).cbuf = t.cbuf := by unfold Thread.result; split <;> simp
@[simp] theorem Thread.result_cvia (t : Thread) (r : Reg) (v : BitVec 64) : (t.result r v).cvia = t.cvia := by unfold Thread.result; split <;> simp
@[simp] theorem Thread.result_pubV (t : Thread) (r : Reg) (v : BitVec 64) : (t.result r v).pubV = t.pubV := by unfold Thread.result; split <;> simp
@[simp] theorem Thread.result_vbuf (t : Thread) (r : Reg) (v : BitVec 64) : (t.result r v).vbuf = t.vbuf := by unfold Thread.result; split <;> simp
@[simp] theorem Thread.result_readyAt (t : Thread) (r : Reg) (v : BitVec 64) : (t.result r v).readyAt = t.readyAt := by unfold Thread.result; split <;> simp
@[simp] theorem Thread.result_workAt (t : Thread) (r : Reg) (v : BitVec 64) : (t.result r v).workAt = t.workAt := by unfold Thread.result; split <;> simp

@[simp] theorem Thread.raise_slot (t : Thread) (fl : Flg) : (t.raise fl).slot = t.slot := rfl
@[simp] theorem Thread.raise_part (t : Thread) (fl : Flg) : (t.raise fl).part = t.part := rfl
@[simp] theorem Thread.raise_launch (t : Thread) (fl : Flg) : (t.raise fl).launch = t.launch := rfl
@[simp] theorem Thread.raise_rank (t : Thread) (fl : Flg) : (t.raise fl).rank = t.rank := rfl
@[simp] theorem Thread.raise_run (t : Thread) (fl : Flg) : (t.raise fl).run = t.run := rfl
@[simp] theorem Thread.raise_pc (t : Thread) (fl : Flg) : (t.raise fl).pc = t.pc := rfl
@[simp] theorem Thread.raise_g (t : Thread) (fl : Flg) : (t.raise fl).g = t.g := rfl
@[simp] theorem Thread.raise_frm (t : Thread) (fl : Flg) : (t.raise fl).frm = t.frm := rfl
@[simp] theorem Thread.raise_xrm (t : Thread) (fl : Flg) : (t.raise fl).xrm = t.xrm := rfl
@[simp] theorem Thread.raise_seed (t : Thread) (fl : Flg) : (t.raise fl).seed = t.seed := rfl
@[simp] theorem Thread.raise_carry (t : Thread) (fl : Flg) : (t.raise fl).carry = t.carry := rfl
@[simp] theorem Thread.raise_sup (t : Thread) (fl : Flg) : (t.raise fl).sup = t.sup := rfl
@[simp] theorem Thread.raise_vempty (t : Thread) (fl : Flg) : (t.raise fl).vempty = t.vempty := rfl
@[simp] theorem Thread.raise_det (t : Thread) (fl : Flg) : (t.raise fl).det = t.det := rfl
@[simp] theorem Thread.raise_pe (t : Thread) (fl : Flg) : (t.raise fl).pe = t.pe := rfl
@[simp] theorem Thread.raise_prioMax (t : Thread) (fl : Flg) : (t.raise fl).prioMax = t.prioMax := rfl
@[simp] theorem Thread.raise_level (t : Thread) (fl : Flg) : (t.raise fl).level = t.level := rfl
@[simp] theorem Thread.raise_weight (t : Thread) (fl : Flg) : (t.raise fl).weight = t.weight := rfl
@[simp] theorem Thread.raise_aspace (t : Thread) (fl : Flg) : (t.raise fl).aspace = t.aspace := rfl
@[simp] theorem Thread.raise_vtype (t : Thread) (fl : Flg) : (t.raise fl).vtype = t.vtype := rfl
@[simp] theorem Thread.raise_vl (t : Thread) (fl : Flg) : (t.raise fl).vl = t.vl := rfl
@[simp] theorem Thread.raise_splitC (t : Thread) (fl : Flg) : (t.raise fl).splitC = t.splitC := rfl
@[simp] theorem Thread.raise_lvd (t : Thread) (fl : Flg) : (t.raise fl).lvd = t.lvd := rfl
@[simp] theorem Thread.raise_nest (t : Thread) (fl : Flg) : (t.raise fl).nest = t.nest := rfl
@[simp] theorem Thread.raise_amo (t : Thread) (fl : Flg) : (t.raise fl).amo = t.amo := rfl
@[simp] theorem Thread.raise_vstart (t : Thread) (fl : Flg) : (t.raise fl).vstart = t.vstart := rfl
@[simp] theorem Thread.raise_splitV (t : Thread) (fl : Flg) : (t.raise fl).splitV = t.splitV := rfl
@[simp] theorem Thread.raise_queue (t : Thread) (fl : Flg) : (t.raise fl).queue = t.queue := rfl
@[simp] theorem Thread.raise_pushSeq (t : Thread) (fl : Flg) : (t.raise fl).pushSeq = t.pushSeq := rfl
@[simp] theorem Thread.raise_vreg (t : Thread) (fl : Flg) : (t.raise fl).vreg = t.vreg := rfl
@[simp] theorem Thread.raise_hw (t : Thread) (fl : Flg) : (t.raise fl).hw = t.hw := rfl
@[simp] theorem Thread.raise_m (t : Thread) (fl : Flg) : (t.raise fl).m = t.m := rfl
@[simp] theorem Thread.raise_chain (t : Thread) (fl : Flg) : (t.raise fl).chain = t.chain := rfl
@[simp] theorem Thread.raise_recording (t : Thread) (fl : Flg) : (t.raise fl).recording = t.recording := rfl
@[simp] theorem Thread.raise_replay (t : Thread) (fl : Flg) : (t.raise fl).replay = t.replay := rfl
@[simp] theorem Thread.raise_held (t : Thread) (fl : Flg) : (t.raise fl).held = t.held := rfl
@[simp] theorem Thread.raise_cb (t : Thread) (fl : Flg) : (t.raise fl).cb = t.cb := rfl
@[simp] theorem Thread.raise_treg (t : Thread) (fl : Flg) : (t.raise fl).treg = t.treg := rfl
@[simp] theorem Thread.raise_view0 (t : Thread) (fl : Flg) : (t.raise fl).view0 = t.view0 := rfl
@[simp] theorem Thread.raise_view1 (t : Thread) (fl : Flg) : (t.raise fl).view1 = t.view1 := rfl
@[simp] theorem Thread.raise_h0 (t : Thread) (fl : Flg) : (t.raise fl).h0 = t.h0 := rfl
@[simp] theorem Thread.raise_h1 (t : Thread) (fl : Flg) : (t.raise fl).h1 = t.h1 := rfl
@[simp] theorem Thread.raise_b (t : Thread) (fl : Flg) : (t.raise fl).b = t.b := rfl
@[simp] theorem Thread.raise_tree (t : Thread) (fl : Flg) : (t.raise fl).tree = t.tree := rfl
@[simp] theorem Thread.raise_treeAddr (t : Thread) (fl : Flg) : (t.raise fl).treeAddr = t.treeAddr := rfl
@[simp] theorem Thread.raise_n (t : Thread) (fl : Flg) : (t.raise fl).n = t.n := rfl
@[simp] theorem Thread.raise_f (t : Thread) (fl : Flg) : (t.raise fl).f = t.f := rfl
@[simp] theorem Thread.raise_streams (t : Thread) (fl : Flg) : (t.raise fl).streams = t.streams := rfl
@[simp] theorem Thread.raise_q (t : Thread) (fl : Flg) : (t.raise fl).q = t.q := rfl
@[simp] theorem Thread.raise_owed (t : Thread) (fl : Flg) : (t.raise fl).owed = t.owed := rfl
@[simp] theorem Thread.raise_tok (t : Thread) (fl : Flg) : (t.raise fl).tok = t.tok := rfl
@[simp] theorem Thread.raise_tokRes (t : Thread) (fl : Flg) : (t.raise fl).tokRes = t.tokRes := rfl
@[simp] theorem Thread.raise_comb (t : Thread) (fl : Flg) : (t.raise fl).comb = t.comb := rfl
@[simp] theorem Thread.raise_combVia (t : Thread) (fl : Flg) : (t.raise fl).combVia = t.combVia := rfl
@[simp] theorem Thread.raise_drainNo (t : Thread) (fl : Flg) : (t.raise fl).drainNo = t.drainNo := rfl
@[simp] theorem Thread.raise_draining (t : Thread) (fl : Flg) : (t.raise fl).draining = t.draining := rfl
@[simp] theorem Thread.raise_drainedAt (t : Thread) (fl : Flg) : (t.raise fl).drainedAt = t.drainedAt := rfl
@[simp] theorem Thread.raise_chOut (t : Thread) (fl : Flg) : (t.raise fl).chOut = t.chOut := rfl
@[simp] theorem Thread.raise_chStatus (t : Thread) (fl : Flg) : (t.raise fl).chStatus = t.chStatus := rfl
@[simp] theorem Thread.raise_chFlags (t : Thread) (fl : Flg) : (t.raise fl).chFlags = t.chFlags := rfl
@[simp] theorem Thread.raise_arrived (t : Thread) (fl : Flg) : (t.raise fl).arrived = t.arrived := rfl
@[simp] theorem Thread.raise_yieldFor (t : Thread) (fl : Flg) : (t.raise fl).yieldFor = t.yieldFor := rfl
@[simp] theorem Thread.raise_evict (t : Thread) (fl : Flg) : (t.raise fl).evict = t.evict := rfl
@[simp] theorem Thread.raise_lost (t : Thread) (fl : Flg) : (t.raise fl).lost = t.lost := rfl
@[simp] theorem Thread.raise_cbuf (t : Thread) (fl : Flg) : (t.raise fl).cbuf = t.cbuf := rfl
@[simp] theorem Thread.raise_cvia (t : Thread) (fl : Flg) : (t.raise fl).cvia = t.cvia := rfl
@[simp] theorem Thread.raise_pubV (t : Thread) (fl : Flg) : (t.raise fl).pubV = t.pubV := rfl
@[simp] theorem Thread.raise_vbuf (t : Thread) (fl : Flg) : (t.raise fl).vbuf = t.vbuf := rfl
@[simp] theorem Thread.raise_readyAt (t : Thread) (fl : Flg) : (t.raise fl).readyAt = t.readyAt := rfl
@[simp] theorem Thread.raise_workAt (t : Thread) (fl : Flg) : (t.raise fl).workAt = t.workAt := rfl

@[simp] theorem Thread.advance_slot (t : Thread) (n : Nat) : (t.advance n).slot = t.slot := by unfold Thread.advance Thread.startIter; split <;> [rfl; (split <;> [rfl; (split <;> rfl)])]
@[simp] theorem Thread.advance_part (t : Thread) (n : Nat) : (t.advance n).part = t.part := by unfold Thread.advance Thread.startIter; split <;> [rfl; (split <;> [rfl; (split <;> rfl)])]
@[simp] theorem Thread.advance_launch (t : Thread) (n : Nat) : (t.advance n).launch = t.launch := by unfold Thread.advance Thread.startIter; split <;> [rfl; (split <;> [rfl; (split <;> rfl)])]
@[simp] theorem Thread.advance_rank (t : Thread) (n : Nat) : (t.advance n).rank = t.rank := by unfold Thread.advance Thread.startIter; split <;> [rfl; (split <;> [rfl; (split <;> rfl)])]
@[simp] theorem Thread.advance_run (t : Thread) (n : Nat) : (t.advance n).run = t.run := by unfold Thread.advance Thread.startIter; split <;> [rfl; (split <;> [rfl; (split <;> rfl)])]
@[simp] theorem Thread.advance_g (t : Thread) (n : Nat) : (t.advance n).g = t.g := by unfold Thread.advance Thread.startIter; split <;> [rfl; (split <;> [rfl; (split <;> rfl)])]
@[simp] theorem Thread.advance_frm (t : Thread) (n : Nat) : (t.advance n).frm = t.frm := by unfold Thread.advance Thread.startIter; split <;> [rfl; (split <;> [rfl; (split <;> rfl)])]
@[simp] theorem Thread.advance_xrm (t : Thread) (n : Nat) : (t.advance n).xrm = t.xrm := by unfold Thread.advance Thread.startIter; split <;> [rfl; (split <;> [rfl; (split <;> rfl)])]
@[simp] theorem Thread.advance_fflags (t : Thread) (n : Nat) : (t.advance n).fflags = t.fflags := by unfold Thread.advance Thread.startIter; split <;> [rfl; (split <;> [rfl; (split <;> rfl)])]
@[simp] theorem Thread.advance_sat (t : Thread) (n : Nat) : (t.advance n).sat = t.sat := by unfold Thread.advance Thread.startIter; split <;> [rfl; (split <;> [rfl; (split <;> rfl)])]
@[simp] theorem Thread.advance_seed (t : Thread) (n : Nat) : (t.advance n).seed = t.seed := by unfold Thread.advance Thread.startIter; split <;> [rfl; (split <;> [rfl; (split <;> rfl)])]
@[simp] theorem Thread.advance_carry (t : Thread) (n : Nat) : (t.advance n).carry = t.carry := by unfold Thread.advance Thread.startIter; split <;> [rfl; (split <;> [rfl; (split <;> rfl)])]
@[simp] theorem Thread.advance_sup (t : Thread) (n : Nat) : (t.advance n).sup = t.sup := by unfold Thread.advance Thread.startIter; split <;> [rfl; (split <;> [rfl; (split <;> rfl)])]
@[simp] theorem Thread.advance_vempty (t : Thread) (n : Nat) : (t.advance n).vempty = t.vempty := by unfold Thread.advance Thread.startIter; split <;> [rfl; (split <;> [rfl; (split <;> rfl)])]
@[simp] theorem Thread.advance_det (t : Thread) (n : Nat) : (t.advance n).det = t.det := by unfold Thread.advance Thread.startIter; split <;> [rfl; (split <;> [rfl; (split <;> rfl)])]
@[simp] theorem Thread.advance_pe (t : Thread) (n : Nat) : (t.advance n).pe = t.pe := by unfold Thread.advance Thread.startIter; split <;> [rfl; (split <;> [rfl; (split <;> rfl)])]
@[simp] theorem Thread.advance_prioMax (t : Thread) (n : Nat) : (t.advance n).prioMax = t.prioMax := by unfold Thread.advance Thread.startIter; split <;> [rfl; (split <;> [rfl; (split <;> rfl)])]
@[simp] theorem Thread.advance_level (t : Thread) (n : Nat) : (t.advance n).level = t.level := by unfold Thread.advance Thread.startIter; split <;> [rfl; (split <;> [rfl; (split <;> rfl)])]
@[simp] theorem Thread.advance_weight (t : Thread) (n : Nat) : (t.advance n).weight = t.weight := by unfold Thread.advance Thread.startIter; split <;> [rfl; (split <;> [rfl; (split <;> rfl)])]
@[simp] theorem Thread.advance_aspace (t : Thread) (n : Nat) : (t.advance n).aspace = t.aspace := by unfold Thread.advance Thread.startIter; split <;> [rfl; (split <;> [rfl; (split <;> rfl)])]
@[simp] theorem Thread.advance_vtype (t : Thread) (n : Nat) : (t.advance n).vtype = t.vtype := by unfold Thread.advance Thread.startIter; split <;> [rfl; (split <;> [rfl; (split <;> rfl)])]
@[simp] theorem Thread.advance_vl (t : Thread) (n : Nat) : (t.advance n).vl = t.vl := by unfold Thread.advance Thread.startIter; split <;> [rfl; (split <;> [rfl; (split <;> rfl)])]
@[simp] theorem Thread.advance_splitC (t : Thread) (n : Nat) : (t.advance n).splitC = t.splitC := by unfold Thread.advance Thread.startIter; split <;> [rfl; (split <;> [rfl; (split <;> rfl)])]
@[simp] theorem Thread.advance_lvd (t : Thread) (n : Nat) : (t.advance n).lvd = t.lvd := by unfold Thread.advance Thread.startIter; split <;> [rfl; (split <;> [rfl; (split <;> rfl)])]
@[simp] theorem Thread.advance_amo (t : Thread) (n : Nat) : (t.advance n).amo = t.amo := by unfold Thread.advance Thread.startIter; split <;> [rfl; (split <;> [rfl; (split <;> rfl)])]
@[simp] theorem Thread.advance_vstart (t : Thread) (n : Nat) : (t.advance n).vstart = t.vstart := by unfold Thread.advance Thread.startIter; split <;> [rfl; (split <;> [rfl; (split <;> rfl)])]
@[simp] theorem Thread.advance_splitV (t : Thread) (n : Nat) : (t.advance n).splitV = t.splitV := by unfold Thread.advance Thread.startIter; split <;> [rfl; (split <;> [rfl; (split <;> rfl)])]
@[simp] theorem Thread.advance_queue (t : Thread) (n : Nat) : (t.advance n).queue = t.queue := by unfold Thread.advance Thread.startIter; split <;> [rfl; (split <;> [rfl; (split <;> rfl)])]
@[simp] theorem Thread.advance_pushSeq (t : Thread) (n : Nat) : (t.advance n).pushSeq = t.pushSeq := by unfold Thread.advance Thread.startIter; split <;> [rfl; (split <;> [rfl; (split <;> rfl)])]
@[simp] theorem Thread.advance_vreg (t : Thread) (n : Nat) : (t.advance n).vreg = t.vreg := by unfold Thread.advance Thread.startIter; split <;> [rfl; (split <;> [rfl; (split <;> rfl)])]
@[simp] theorem Thread.advance_hw (t : Thread) (n : Nat) : (t.advance n).hw = t.hw := by unfold Thread.advance Thread.startIter; split <;> [rfl; (split <;> [rfl; (split <;> rfl)])]
@[simp] theorem Thread.advance_m (t : Thread) (n : Nat) : (t.advance n).m = t.m := by unfold Thread.advance Thread.startIter; split <;> [rfl; (split <;> [rfl; (split <;> rfl)])]
@[simp] theorem Thread.advance_chain (t : Thread) (n : Nat) : (t.advance n).chain = t.chain := by unfold Thread.advance Thread.startIter; split <;> [rfl; (split <;> [rfl; (split <;> rfl)])]
@[simp] theorem Thread.advance_recording (t : Thread) (n : Nat) : (t.advance n).recording = t.recording := by unfold Thread.advance Thread.startIter; split <;> [rfl; (split <;> [rfl; (split <;> rfl)])]
@[simp] theorem Thread.advance_replay (t : Thread) (n : Nat) : (t.advance n).replay = t.replay := by unfold Thread.advance Thread.startIter; split <;> [rfl; (split <;> [rfl; (split <;> rfl)])]
@[simp] theorem Thread.advance_held (t : Thread) (n : Nat) : (t.advance n).held = t.held := by unfold Thread.advance Thread.startIter; split <;> [rfl; (split <;> [rfl; (split <;> rfl)])]
@[simp] theorem Thread.advance_cb (t : Thread) (n : Nat) : (t.advance n).cb = t.cb := by unfold Thread.advance Thread.startIter; split <;> [rfl; (split <;> [rfl; (split <;> rfl)])]
@[simp] theorem Thread.advance_treg (t : Thread) (n : Nat) : (t.advance n).treg = t.treg := by unfold Thread.advance Thread.startIter; split <;> [rfl; (split <;> [rfl; (split <;> rfl)])]
@[simp] theorem Thread.advance_view0 (t : Thread) (n : Nat) : (t.advance n).view0 = t.view0 := by unfold Thread.advance Thread.startIter; split <;> [rfl; (split <;> [rfl; (split <;> rfl)])]
@[simp] theorem Thread.advance_view1 (t : Thread) (n : Nat) : (t.advance n).view1 = t.view1 := by unfold Thread.advance Thread.startIter; split <;> [rfl; (split <;> [rfl; (split <;> rfl)])]
@[simp] theorem Thread.advance_h0 (t : Thread) (n : Nat) : (t.advance n).h0 = t.h0 := by unfold Thread.advance Thread.startIter; split <;> [rfl; (split <;> [rfl; (split <;> rfl)])]
@[simp] theorem Thread.advance_h1 (t : Thread) (n : Nat) : (t.advance n).h1 = t.h1 := by unfold Thread.advance Thread.startIter; split <;> [rfl; (split <;> [rfl; (split <;> rfl)])]
@[simp] theorem Thread.advance_b (t : Thread) (n : Nat) : (t.advance n).b = t.b := by unfold Thread.advance Thread.startIter; split <;> [rfl; (split <;> [rfl; (split <;> rfl)])]
@[simp] theorem Thread.advance_tree (t : Thread) (n : Nat) : (t.advance n).tree = t.tree := by unfold Thread.advance Thread.startIter; split <;> [rfl; (split <;> [rfl; (split <;> rfl)])]
@[simp] theorem Thread.advance_treeAddr (t : Thread) (n : Nat) : (t.advance n).treeAddr = t.treeAddr := by unfold Thread.advance Thread.startIter; split <;> [rfl; (split <;> [rfl; (split <;> rfl)])]
@[simp] theorem Thread.advance_n (t : Thread) (n : Nat) : (t.advance n).n = t.n := by unfold Thread.advance Thread.startIter; split <;> [rfl; (split <;> [rfl; (split <;> rfl)])]
@[simp] theorem Thread.advance_f (t : Thread) (n : Nat) : (t.advance n).f = t.f := by unfold Thread.advance Thread.startIter; split <;> [rfl; (split <;> [rfl; (split <;> rfl)])]
@[simp] theorem Thread.advance_streams (t : Thread) (n : Nat) : (t.advance n).streams = t.streams := by unfold Thread.advance Thread.startIter; split <;> [rfl; (split <;> [rfl; (split <;> rfl)])]
@[simp] theorem Thread.advance_q (t : Thread) (n : Nat) : (t.advance n).q = t.q := by unfold Thread.advance Thread.startIter; split <;> [rfl; (split <;> [rfl; (split <;> rfl)])]
@[simp] theorem Thread.advance_owed (t : Thread) (n : Nat) : (t.advance n).owed = t.owed := by unfold Thread.advance Thread.startIter; split <;> [rfl; (split <;> [rfl; (split <;> rfl)])]
@[simp] theorem Thread.advance_tok (t : Thread) (n : Nat) : (t.advance n).tok = t.tok := by unfold Thread.advance Thread.startIter; split <;> [rfl; (split <;> [rfl; (split <;> rfl)])]
@[simp] theorem Thread.advance_tokRes (t : Thread) (n : Nat) : (t.advance n).tokRes = t.tokRes := by unfold Thread.advance Thread.startIter; split <;> [rfl; (split <;> [rfl; (split <;> rfl)])]
@[simp] theorem Thread.advance_comb (t : Thread) (n : Nat) : (t.advance n).comb = t.comb := by unfold Thread.advance Thread.startIter; split <;> [rfl; (split <;> [rfl; (split <;> rfl)])]
@[simp] theorem Thread.advance_combVia (t : Thread) (n : Nat) : (t.advance n).combVia = t.combVia := by unfold Thread.advance Thread.startIter; split <;> [rfl; (split <;> [rfl; (split <;> rfl)])]
@[simp] theorem Thread.advance_drainNo (t : Thread) (n : Nat) : (t.advance n).drainNo = t.drainNo := by unfold Thread.advance Thread.startIter; split <;> [rfl; (split <;> [rfl; (split <;> rfl)])]
@[simp] theorem Thread.advance_draining (t : Thread) (n : Nat) : (t.advance n).draining = t.draining := by unfold Thread.advance Thread.startIter; split <;> [rfl; (split <;> [rfl; (split <;> rfl)])]
@[simp] theorem Thread.advance_drainedAt (t : Thread) (n : Nat) : (t.advance n).drainedAt = t.drainedAt := by unfold Thread.advance Thread.startIter; split <;> [rfl; (split <;> [rfl; (split <;> rfl)])]
@[simp] theorem Thread.advance_chOut (t : Thread) (n : Nat) : (t.advance n).chOut = t.chOut := by unfold Thread.advance Thread.startIter; split <;> [rfl; (split <;> [rfl; (split <;> rfl)])]
@[simp] theorem Thread.advance_chStatus (t : Thread) (n : Nat) : (t.advance n).chStatus = t.chStatus := by unfold Thread.advance Thread.startIter; split <;> [rfl; (split <;> [rfl; (split <;> rfl)])]
@[simp] theorem Thread.advance_chFlags (t : Thread) (n : Nat) : (t.advance n).chFlags = t.chFlags := by unfold Thread.advance Thread.startIter; split <;> [rfl; (split <;> [rfl; (split <;> rfl)])]
@[simp] theorem Thread.advance_arrived (t : Thread) (n : Nat) : (t.advance n).arrived = t.arrived := by unfold Thread.advance Thread.startIter; split <;> [rfl; (split <;> [rfl; (split <;> rfl)])]
@[simp] theorem Thread.advance_yieldFor (t : Thread) (n : Nat) : (t.advance n).yieldFor = t.yieldFor := by unfold Thread.advance Thread.startIter; split <;> [rfl; (split <;> [rfl; (split <;> rfl)])]
@[simp] theorem Thread.advance_evict (t : Thread) (n : Nat) : (t.advance n).evict = t.evict := by unfold Thread.advance Thread.startIter; split <;> [rfl; (split <;> [rfl; (split <;> rfl)])]
@[simp] theorem Thread.advance_lost (t : Thread) (n : Nat) : (t.advance n).lost = t.lost := by unfold Thread.advance Thread.startIter; split <;> [rfl; (split <;> [rfl; (split <;> rfl)])]
@[simp] theorem Thread.advance_cbuf (t : Thread) (n : Nat) : (t.advance n).cbuf = t.cbuf := by unfold Thread.advance Thread.startIter; split <;> [rfl; (split <;> [rfl; (split <;> rfl)])]
@[simp] theorem Thread.advance_cvia (t : Thread) (n : Nat) : (t.advance n).cvia = t.cvia := by unfold Thread.advance Thread.startIter; split <;> [rfl; (split <;> [rfl; (split <;> rfl)])]
@[simp] theorem Thread.advance_pubV (t : Thread) (n : Nat) : (t.advance n).pubV = t.pubV := by unfold Thread.advance Thread.startIter; split <;> [rfl; (split <;> [rfl; (split <;> rfl)])]
@[simp] theorem Thread.advance_vbuf (t : Thread) (n : Nat) : (t.advance n).vbuf = t.vbuf := by unfold Thread.advance Thread.startIter; split <;> [rfl; (split <;> [rfl; (split <;> rfl)])]
@[simp] theorem Thread.advance_readyAt (t : Thread) (n : Nat) : (t.advance n).readyAt = t.readyAt := by unfold Thread.advance Thread.startIter; split <;> [rfl; (split <;> [rfl; (split <;> rfl)])]
@[simp] theorem Thread.advance_workAt (t : Thread) (n : Nat) : (t.advance n).workAt = t.workAt := by unfold Thread.advance Thread.startIter; split <;> [rfl; (split <;> [rfl; (split <;> rfl)])]

@[simp] theorem Thread.past_slot (t : Thread) (i : Instr) : (t.past i).slot = t.slot := by unfold Thread.past; simp
@[simp] theorem Thread.past_part (t : Thread) (i : Instr) : (t.past i).part = t.part := by unfold Thread.past; simp
@[simp] theorem Thread.past_launch (t : Thread) (i : Instr) : (t.past i).launch = t.launch := by unfold Thread.past; simp
@[simp] theorem Thread.past_rank (t : Thread) (i : Instr) : (t.past i).rank = t.rank := by unfold Thread.past; simp
@[simp] theorem Thread.past_run (t : Thread) (i : Instr) : (t.past i).run = t.run := by unfold Thread.past; simp
@[simp] theorem Thread.past_g (t : Thread) (i : Instr) : (t.past i).g = t.g := by unfold Thread.past; simp
@[simp] theorem Thread.past_frm (t : Thread) (i : Instr) : (t.past i).frm = t.frm := by unfold Thread.past; simp
@[simp] theorem Thread.past_xrm (t : Thread) (i : Instr) : (t.past i).xrm = t.xrm := by unfold Thread.past; simp
@[simp] theorem Thread.past_fflags (t : Thread) (i : Instr) : (t.past i).fflags = t.fflags := by unfold Thread.past; simp
@[simp] theorem Thread.past_sat (t : Thread) (i : Instr) : (t.past i).sat = t.sat := by unfold Thread.past; simp
@[simp] theorem Thread.past_seed (t : Thread) (i : Instr) : (t.past i).seed = t.seed := by unfold Thread.past; simp
@[simp] theorem Thread.past_carry (t : Thread) (i : Instr) : (t.past i).carry = t.carry := by unfold Thread.past; simp
@[simp] theorem Thread.past_sup (t : Thread) (i : Instr) : (t.past i).sup = t.sup := by unfold Thread.past; simp
@[simp] theorem Thread.past_vempty (t : Thread) (i : Instr) : (t.past i).vempty = t.vempty := by unfold Thread.past; simp
@[simp] theorem Thread.past_det (t : Thread) (i : Instr) : (t.past i).det = t.det := by unfold Thread.past; simp
@[simp] theorem Thread.past_pe (t : Thread) (i : Instr) : (t.past i).pe = t.pe := by unfold Thread.past; simp
@[simp] theorem Thread.past_prioMax (t : Thread) (i : Instr) : (t.past i).prioMax = t.prioMax := by unfold Thread.past; simp
@[simp] theorem Thread.past_level (t : Thread) (i : Instr) : (t.past i).level = t.level := by unfold Thread.past; simp
@[simp] theorem Thread.past_weight (t : Thread) (i : Instr) : (t.past i).weight = t.weight := by unfold Thread.past; simp
@[simp] theorem Thread.past_aspace (t : Thread) (i : Instr) : (t.past i).aspace = t.aspace := by unfold Thread.past; simp
@[simp] theorem Thread.past_vtype (t : Thread) (i : Instr) : (t.past i).vtype = t.vtype := by unfold Thread.past; simp
@[simp] theorem Thread.past_vl (t : Thread) (i : Instr) : (t.past i).vl = t.vl := by unfold Thread.past; simp
@[simp] theorem Thread.past_splitC (t : Thread) (i : Instr) : (t.past i).splitC = t.splitC := by unfold Thread.past; simp
@[simp] theorem Thread.past_lvd (t : Thread) (i : Instr) : (t.past i).lvd = t.lvd := by unfold Thread.past; simp
@[simp] theorem Thread.past_amo (t : Thread) (i : Instr) : (t.past i).amo = t.amo := by unfold Thread.past; simp
@[simp] theorem Thread.past_vstart (t : Thread) (i : Instr) : (t.past i).vstart = t.vstart := by unfold Thread.past; simp
@[simp] theorem Thread.past_splitV (t : Thread) (i : Instr) : (t.past i).splitV = t.splitV := by unfold Thread.past; simp
@[simp] theorem Thread.past_queue (t : Thread) (i : Instr) : (t.past i).queue = t.queue := by unfold Thread.past; simp
@[simp] theorem Thread.past_pushSeq (t : Thread) (i : Instr) : (t.past i).pushSeq = t.pushSeq := by unfold Thread.past; simp
@[simp] theorem Thread.past_vreg (t : Thread) (i : Instr) : (t.past i).vreg = t.vreg := by unfold Thread.past; simp
@[simp] theorem Thread.past_hw (t : Thread) (i : Instr) : (t.past i).hw = t.hw := by unfold Thread.past; simp
@[simp] theorem Thread.past_m (t : Thread) (i : Instr) : (t.past i).m = t.m := by unfold Thread.past; simp
@[simp] theorem Thread.past_chain (t : Thread) (i : Instr) : (t.past i).chain = t.chain := by unfold Thread.past; simp
@[simp] theorem Thread.past_recording (t : Thread) (i : Instr) : (t.past i).recording = t.recording := by unfold Thread.past; simp
@[simp] theorem Thread.past_replay (t : Thread) (i : Instr) : (t.past i).replay = t.replay := by unfold Thread.past; simp
@[simp] theorem Thread.past_held (t : Thread) (i : Instr) : (t.past i).held = t.held := by unfold Thread.past; simp
@[simp] theorem Thread.past_cb (t : Thread) (i : Instr) : (t.past i).cb = t.cb := by unfold Thread.past; simp
@[simp] theorem Thread.past_treg (t : Thread) (i : Instr) : (t.past i).treg = t.treg := by unfold Thread.past; simp
@[simp] theorem Thread.past_view0 (t : Thread) (i : Instr) : (t.past i).view0 = t.view0 := by unfold Thread.past; simp
@[simp] theorem Thread.past_view1 (t : Thread) (i : Instr) : (t.past i).view1 = t.view1 := by unfold Thread.past; simp
@[simp] theorem Thread.past_h0 (t : Thread) (i : Instr) : (t.past i).h0 = t.h0 := by unfold Thread.past; simp
@[simp] theorem Thread.past_h1 (t : Thread) (i : Instr) : (t.past i).h1 = t.h1 := by unfold Thread.past; simp
@[simp] theorem Thread.past_b (t : Thread) (i : Instr) : (t.past i).b = t.b := by unfold Thread.past; simp
@[simp] theorem Thread.past_tree (t : Thread) (i : Instr) : (t.past i).tree = t.tree := by unfold Thread.past; simp
@[simp] theorem Thread.past_treeAddr (t : Thread) (i : Instr) : (t.past i).treeAddr = t.treeAddr := by unfold Thread.past; simp
@[simp] theorem Thread.past_n (t : Thread) (i : Instr) : (t.past i).n = t.n := by unfold Thread.past; simp
@[simp] theorem Thread.past_f (t : Thread) (i : Instr) : (t.past i).f = t.f := by unfold Thread.past; simp
@[simp] theorem Thread.past_streams (t : Thread) (i : Instr) : (t.past i).streams = t.streams := by unfold Thread.past; simp
@[simp] theorem Thread.past_q (t : Thread) (i : Instr) : (t.past i).q = t.q := by unfold Thread.past; simp
@[simp] theorem Thread.past_owed (t : Thread) (i : Instr) : (t.past i).owed = t.owed := by unfold Thread.past; simp
@[simp] theorem Thread.past_tok (t : Thread) (i : Instr) : (t.past i).tok = t.tok := by unfold Thread.past; simp
@[simp] theorem Thread.past_tokRes (t : Thread) (i : Instr) : (t.past i).tokRes = t.tokRes := by unfold Thread.past; simp
@[simp] theorem Thread.past_comb (t : Thread) (i : Instr) : (t.past i).comb = t.comb := by unfold Thread.past; simp
@[simp] theorem Thread.past_combVia (t : Thread) (i : Instr) : (t.past i).combVia = t.combVia := by unfold Thread.past; simp
@[simp] theorem Thread.past_drainNo (t : Thread) (i : Instr) : (t.past i).drainNo = t.drainNo := by unfold Thread.past; simp
@[simp] theorem Thread.past_draining (t : Thread) (i : Instr) : (t.past i).draining = t.draining := by unfold Thread.past; simp
@[simp] theorem Thread.past_chOut (t : Thread) (i : Instr) : (t.past i).chOut = t.chOut := by unfold Thread.past; simp
@[simp] theorem Thread.past_chStatus (t : Thread) (i : Instr) : (t.past i).chStatus = t.chStatus := by unfold Thread.past; simp
@[simp] theorem Thread.past_chFlags (t : Thread) (i : Instr) : (t.past i).chFlags = t.chFlags := by unfold Thread.past; simp
@[simp] theorem Thread.past_evict (t : Thread) (i : Instr) : (t.past i).evict = t.evict := by unfold Thread.past; simp
@[simp] theorem Thread.past_lost (t : Thread) (i : Instr) : (t.past i).lost = t.lost := by unfold Thread.past; simp
@[simp] theorem Thread.past_cbuf (t : Thread) (i : Instr) : (t.past i).cbuf = t.cbuf := by unfold Thread.past; simp
@[simp] theorem Thread.past_cvia (t : Thread) (i : Instr) : (t.past i).cvia = t.cvia := by unfold Thread.past; simp
@[simp] theorem Thread.past_vbuf (t : Thread) (i : Instr) : (t.past i).vbuf = t.vbuf := by unfold Thread.past; simp
@[simp] theorem Thread.past_readyAt (t : Thread) (i : Instr) : (t.past i).readyAt = t.readyAt := by unfold Thread.past; simp
@[simp] theorem Thread.past_workAt (t : Thread) (i : Instr) : (t.past i).workAt = t.workAt := by unfold Thread.past; simp

@[simp] theorem Thread.issued_slot (t : Thread) (l : List Reg) : (t.issued l).slot = t.slot := by unfold Thread.issued; simp
@[simp] theorem Thread.issued_part (t : Thread) (l : List Reg) : (t.issued l).part = t.part := by unfold Thread.issued; simp
@[simp] theorem Thread.issued_launch (t : Thread) (l : List Reg) : (t.issued l).launch = t.launch := by unfold Thread.issued; simp
@[simp] theorem Thread.issued_rank (t : Thread) (l : List Reg) : (t.issued l).rank = t.rank := by unfold Thread.issued; simp
@[simp] theorem Thread.issued_pc (t : Thread) (l : List Reg) : (t.issued l).pc = t.pc := by unfold Thread.issued; simp
@[simp] theorem Thread.issued_g (t : Thread) (l : List Reg) : (t.issued l).g = t.g := by unfold Thread.issued; simp
@[simp] theorem Thread.issued_frm (t : Thread) (l : List Reg) : (t.issued l).frm = t.frm := by unfold Thread.issued; simp
@[simp] theorem Thread.issued_xrm (t : Thread) (l : List Reg) : (t.issued l).xrm = t.xrm := by unfold Thread.issued; simp
@[simp] theorem Thread.issued_fflags (t : Thread) (l : List Reg) : (t.issued l).fflags = t.fflags := by unfold Thread.issued; simp
@[simp] theorem Thread.issued_sat (t : Thread) (l : List Reg) : (t.issued l).sat = t.sat := by unfold Thread.issued; simp
@[simp] theorem Thread.issued_seed (t : Thread) (l : List Reg) : (t.issued l).seed = t.seed := by unfold Thread.issued; simp
@[simp] theorem Thread.issued_carry (t : Thread) (l : List Reg) : (t.issued l).carry = t.carry := by unfold Thread.issued; simp
@[simp] theorem Thread.issued_sup (t : Thread) (l : List Reg) : (t.issued l).sup = t.sup := by unfold Thread.issued; simp
@[simp] theorem Thread.issued_vempty (t : Thread) (l : List Reg) : (t.issued l).vempty = t.vempty := by unfold Thread.issued; simp
@[simp] theorem Thread.issued_det (t : Thread) (l : List Reg) : (t.issued l).det = t.det := by unfold Thread.issued; simp
@[simp] theorem Thread.issued_pe (t : Thread) (l : List Reg) : (t.issued l).pe = t.pe := by unfold Thread.issued; simp
@[simp] theorem Thread.issued_prioMax (t : Thread) (l : List Reg) : (t.issued l).prioMax = t.prioMax := by unfold Thread.issued; simp
@[simp] theorem Thread.issued_level (t : Thread) (l : List Reg) : (t.issued l).level = t.level := by unfold Thread.issued; simp
@[simp] theorem Thread.issued_weight (t : Thread) (l : List Reg) : (t.issued l).weight = t.weight := by unfold Thread.issued; simp
@[simp] theorem Thread.issued_aspace (t : Thread) (l : List Reg) : (t.issued l).aspace = t.aspace := by unfold Thread.issued; simp
@[simp] theorem Thread.issued_vtype (t : Thread) (l : List Reg) : (t.issued l).vtype = t.vtype := by unfold Thread.issued; simp
@[simp] theorem Thread.issued_vl (t : Thread) (l : List Reg) : (t.issued l).vl = t.vl := by unfold Thread.issued; simp
@[simp] theorem Thread.issued_splitC (t : Thread) (l : List Reg) : (t.issued l).splitC = t.splitC := by unfold Thread.issued; simp
@[simp] theorem Thread.issued_lvd (t : Thread) (l : List Reg) : (t.issued l).lvd = t.lvd := by unfold Thread.issued; simp
@[simp] theorem Thread.issued_nest (t : Thread) (l : List Reg) : (t.issued l).nest = t.nest := by unfold Thread.issued; simp
@[simp] theorem Thread.issued_amo (t : Thread) (l : List Reg) : (t.issued l).amo = t.amo := by unfold Thread.issued; simp
@[simp] theorem Thread.issued_vstart (t : Thread) (l : List Reg) : (t.issued l).vstart = t.vstart := by unfold Thread.issued; simp
@[simp] theorem Thread.issued_splitV (t : Thread) (l : List Reg) : (t.issued l).splitV = t.splitV := by unfold Thread.issued; simp
@[simp] theorem Thread.issued_queue (t : Thread) (l : List Reg) : (t.issued l).queue = t.queue := by unfold Thread.issued; simp
@[simp] theorem Thread.issued_pushSeq (t : Thread) (l : List Reg) : (t.issued l).pushSeq = t.pushSeq := by unfold Thread.issued; simp
@[simp] theorem Thread.issued_vreg (t : Thread) (l : List Reg) : (t.issued l).vreg = t.vreg := by unfold Thread.issued; simp
@[simp] theorem Thread.issued_hw (t : Thread) (l : List Reg) : (t.issued l).hw = t.hw := by unfold Thread.issued; simp
@[simp] theorem Thread.issued_m (t : Thread) (l : List Reg) : (t.issued l).m = t.m := by unfold Thread.issued; simp
@[simp] theorem Thread.issued_chain (t : Thread) (l : List Reg) : (t.issued l).chain = t.chain := by unfold Thread.issued; simp
@[simp] theorem Thread.issued_recording (t : Thread) (l : List Reg) : (t.issued l).recording = t.recording := by unfold Thread.issued; simp
@[simp] theorem Thread.issued_replay (t : Thread) (l : List Reg) : (t.issued l).replay = t.replay := by unfold Thread.issued; simp
@[simp] theorem Thread.issued_held (t : Thread) (l : List Reg) : (t.issued l).held = t.held := by unfold Thread.issued; simp
@[simp] theorem Thread.issued_cb (t : Thread) (l : List Reg) : (t.issued l).cb = t.cb := by unfold Thread.issued; simp
@[simp] theorem Thread.issued_treg (t : Thread) (l : List Reg) : (t.issued l).treg = t.treg := by unfold Thread.issued; simp
@[simp] theorem Thread.issued_view0 (t : Thread) (l : List Reg) : (t.issued l).view0 = t.view0 := by unfold Thread.issued; simp
@[simp] theorem Thread.issued_view1 (t : Thread) (l : List Reg) : (t.issued l).view1 = t.view1 := by unfold Thread.issued; simp
@[simp] theorem Thread.issued_h0 (t : Thread) (l : List Reg) : (t.issued l).h0 = t.h0 := by unfold Thread.issued; simp
@[simp] theorem Thread.issued_h1 (t : Thread) (l : List Reg) : (t.issued l).h1 = t.h1 := by unfold Thread.issued; simp
@[simp] theorem Thread.issued_b (t : Thread) (l : List Reg) : (t.issued l).b = t.b := by unfold Thread.issued; simp
@[simp] theorem Thread.issued_tree (t : Thread) (l : List Reg) : (t.issued l).tree = t.tree := by unfold Thread.issued; simp
@[simp] theorem Thread.issued_treeAddr (t : Thread) (l : List Reg) : (t.issued l).treeAddr = t.treeAddr := by unfold Thread.issued; simp
@[simp] theorem Thread.issued_n (t : Thread) (l : List Reg) : (t.issued l).n = t.n := by unfold Thread.issued; simp
@[simp] theorem Thread.issued_f (t : Thread) (l : List Reg) : (t.issued l).f = t.f := by unfold Thread.issued; simp
@[simp] theorem Thread.issued_streams (t : Thread) (l : List Reg) : (t.issued l).streams = t.streams := by unfold Thread.issued; simp
@[simp] theorem Thread.issued_owed (t : Thread) (l : List Reg) : (t.issued l).owed = t.owed := by unfold Thread.issued; simp
@[simp] theorem Thread.issued_tok (t : Thread) (l : List Reg) : (t.issued l).tok = t.tok := by unfold Thread.issued; simp
@[simp] theorem Thread.issued_tokRes (t : Thread) (l : List Reg) : (t.issued l).tokRes = t.tokRes := by unfold Thread.issued; simp
@[simp] theorem Thread.issued_comb (t : Thread) (l : List Reg) : (t.issued l).comb = t.comb := by unfold Thread.issued; simp
@[simp] theorem Thread.issued_combVia (t : Thread) (l : List Reg) : (t.issued l).combVia = t.combVia := by unfold Thread.issued; simp
@[simp] theorem Thread.issued_drainNo (t : Thread) (l : List Reg) : (t.issued l).drainNo = t.drainNo := by unfold Thread.issued; simp
@[simp] theorem Thread.issued_draining (t : Thread) (l : List Reg) : (t.issued l).draining = t.draining := by unfold Thread.issued; simp
@[simp] theorem Thread.issued_drainedAt (t : Thread) (l : List Reg) : (t.issued l).drainedAt = t.drainedAt := by unfold Thread.issued; simp
@[simp] theorem Thread.issued_chOut (t : Thread) (l : List Reg) : (t.issued l).chOut = t.chOut := by unfold Thread.issued; simp
@[simp] theorem Thread.issued_chStatus (t : Thread) (l : List Reg) : (t.issued l).chStatus = t.chStatus := by unfold Thread.issued; simp
@[simp] theorem Thread.issued_chFlags (t : Thread) (l : List Reg) : (t.issued l).chFlags = t.chFlags := by unfold Thread.issued; simp
@[simp] theorem Thread.issued_arrived (t : Thread) (l : List Reg) : (t.issued l).arrived = t.arrived := by unfold Thread.issued; simp
@[simp] theorem Thread.issued_yieldFor (t : Thread) (l : List Reg) : (t.issued l).yieldFor = t.yieldFor := by unfold Thread.issued; simp
@[simp] theorem Thread.issued_evict (t : Thread) (l : List Reg) : (t.issued l).evict = t.evict := by unfold Thread.issued; simp
@[simp] theorem Thread.issued_lost (t : Thread) (l : List Reg) : (t.issued l).lost = t.lost := by unfold Thread.issued; simp
@[simp] theorem Thread.issued_cbuf (t : Thread) (l : List Reg) : (t.issued l).cbuf = t.cbuf := by unfold Thread.issued; simp
@[simp] theorem Thread.issued_cvia (t : Thread) (l : List Reg) : (t.issued l).cvia = t.cvia := by unfold Thread.issued; simp
@[simp] theorem Thread.issued_pubV (t : Thread) (l : List Reg) : (t.issued l).pubV = t.pubV := by unfold Thread.issued; simp
@[simp] theorem Thread.issued_vbuf (t : Thread) (l : List Reg) : (t.issued l).vbuf = t.vbuf := by unfold Thread.issued; simp
@[simp] theorem Thread.issued_readyAt (t : Thread) (l : List Reg) : (t.issued l).readyAt = t.readyAt := by unfold Thread.issued; simp
@[simp] theorem Thread.issued_workAt (t : Thread) (l : List Reg) : (t.issued l).workAt = t.workAt := by unfold Thread.issued; simp

@[simp] theorem Thread.issued_run (t : Thread) (l : List Reg) : (t.issued l).run = .ready := by unfold Thread.issued; simp

@[simp] theorem Thread.rd_zero (t : Thread) : t.rd 0 = 0 := rfl

theorem Thread.rd_of_ne (t : Thread) {x : Reg} (h : x ≠ 0) : t.rd x = t.g.toList.getD x.toNat 0 := if_neg h
theorem Thread.wr_of_ne (t : Thread) {r : Reg} (h : r ≠ 0) (v : BitVec 64) :
    t.wr r v = { t with g := t.g.setIfInBounds r.toNat v } := if_neg h
@[simp] theorem Thread.wr_zero (t : Thread) (v : BitVec 64) : t.wr 0 v = t := rfl

/-- A register written reads back; g0 stays zero (R114). -/
theorem Thread.rd_wr (t : Thread) (r x : Reg) (v : BitVec 64) :
    (t.wr r v).rd x = if x = 0 then 0 else if x = r then v else t.rd x := by
  rcases eq_or_ne x 0 with rfl | hx
  · rfl
  rw [if_neg hx]
  rcases eq_or_ne r 0 with rfl | hr
  · rw [Thread.wr_zero, if_neg hx]
  rw [Thread.rd_of_ne _ hx, Thread.wr_of_ne _ hr, Thread.rd_of_ne _ hx]
  have hlt : x.toNat < 32 := x.isLt
  rcases eq_or_ne x r with rfl | he
  · simp [List.getD_eq_getElem?_getD, hlt]
  · have hn : r.toNat ≠ x.toNat := fun e => he (BitVec.eq_of_toNat_eq e.symm)
    simp only [List.getD_eq_getElem?_getD, Vector.toList_setIfInBounds, List.getElem?_set_ne hn, if_neg he]

@[simp] theorem Thread.rd_setQ (t : Thread) (i : Nat) (v : QReg) (x : Reg) : (t.setQ i v).rd x = t.rd x := rfl

/-- A result in `r`: as a write of the register; a queue register takes it as well (R262). -/
theorem Thread.rd_result (t : Thread) (r x : Reg) (v : BitVec 64) :
    (t.result r v).rd x = if x = 0 then 0 else if x = r then v else t.rd x := by
  unfold Thread.result
  split <;> simp [Thread.rd_wr]

theorem Thread.rd_congr {t u : Thread} (h : t.g = u.g) (x : Reg) : t.rd x = u.rd x := by simp [Thread.rd, h]

@[simp] theorem Thread.rd_past (t : Thread) (i : Instr) (x : Reg) : (t.past i).rd x = t.rd x := Thread.rd_congr (by simp) x
@[simp] theorem Thread.rd_issued (t : Thread) (l : List Reg) (x : Reg) : (t.issued l).rd x = t.rd x := Thread.rd_congr (by simp) x
@[simp] theorem Thread.rd_raise (t : Thread) (f : Flg) (x : Reg) : (t.raise f).rd x = t.rd x := rfl

/-- With no nest running, the next instruction follows. -/
theorem Thread.past_pc (t : Thread) (i : Instr) (h : t.nest = none) : (t.past i).pc = t.pc + BitVec.ofNat 64 (instrLen i) := by
  simp [Thread.past, Thread.advance, h]

theorem Thread.advance_none (t : Thread) (n : Nat) (h : t.nest = none) :
    t.advance n = { t with pc := t.pc + BitVec.ofNat 64 n } := by
  simp [Thread.advance, h]

end
end Sys2Proof.Machine
end

