-- ==== Sys2Proof/Laws/Issue.lean ====
section
/-! SUPPORT. What the shared operation of every control instruction can do: it runs its body where there is nothing to wait for, and else
the thread waits; and the waits and ends inside a body. -/

namespace Sys2Proof.Machine
open Sys2Proof

noncomputable section

variable {s : State} {t : Thread} {i : Instr} {srcs dsts : List Reg}

/-- With nothing to wait for, an instruction runs its body. -/
theorem issue_runs (h : Issues s t srcs dsts) (f : Thread → Thread → Out) : issue i srcs dsts s f = f t (t.issued srcs) := by
  unfold issue withCur
  rw [h.here]
  simp only [h.active, if_true]
  rw [h.noTile, h.settled]
  simp only [Bool.or_self, Bool.false_eq_true, if_false]
  rw [h.entries, h.room]
  rfl

/-- A thread with an empty vector queue and no queue register bound finds nothing to wait for, whatever it reads and writes. -/
theorem idle_issues (here : s.thread? s.cur = some t) (active : t.active? = true) (hq : t.queue = [])
    (hb : ∀ r, t.boundQ r = none) (srcs dsts : List Reg) : Issues s t srcs dsts := by
  have h0 : t.srcQueues srcs = [] := by
    have : srcs.filterMap t.boundQ = [] := List.filterMap_eq_nil_iff.2 fun r _ => hb r
    simp [Thread.srcQueues, this]
  refine ⟨here, active, ?_, ?_, ?_, ?_⟩
  · simp [Thread.awaitsTile, hq]
  · have hp : ∀ r, t.isPending r = false := fun r => by simp [Thread.isPending, hq]
    simp [hp]
  · simp [h0]
  · simp [Thread.dstFull, hb]

/-- Everything `issue` can do: nothing, a wait, or its body with nothing to wait for. -/
theorem issue_cases (i : Instr) (srcs dsts : List Reg) (s : State) (f : Thread → Thread → Out) :
    issue i srcs dsts s f = .next s
      ∨ (∃ t, s.thread? s.cur = some t ∧ issue i srcs dsts s f = wait s t i)
      ∨ ∃ t, Issues s t srcs dsts ∧ issue i srcs dsts s f = f t (t.issued srcs) := by
  unfold issue withCur
  cases hh : s.thread? s.cur with
  | none => exact .inl rfl
  | some t =>
    by_cases ha : t.active? = true
    · simp only [ha, if_true]
      by_cases h1 : (t.awaitsTile || (srcs ++ dsts).any t.isPending) = true
      · simp only [h1, if_true]
        exact .inr (.inl ⟨t, rfl, rfl⟩)
      · by_cases h2 : ((t.srcQueues srcs).any (fun q => (t.qAt q).entries.isEmpty) || dsts.any (t.dstFull (t.srcQueues srcs))) = true
        · simp only [h1, h2, if_true]
          exact .inr (.inl ⟨t, rfl, rfl⟩)
        · have e1 := Bool.or_eq_false_iff.1 (Bool.not_eq_true _ ▸ h1)
          have e2 := Bool.or_eq_false_iff.1 (Bool.not_eq_true _ ▸ h2)
          refine .inr (.inr ⟨t, ⟨hh, ha, e1.1, e1.2, e2.1, e2.2⟩, ?_⟩)
          simp only [h1, h2]
          rfl
    · simp only [ha]
      exact .inl rfl

theorem compute_runs (h : Issues s t srcs [d]) (v : Thread → BitVec 64) :
    compute i srcs d s v = .next (retired s ((t.issued srcs).result d (v t)) i) := by
  unfold compute
  rw [issue_runs h]
  rfl

@[simp] theorem done_eq (s : State) (u : Thread) (i : Instr) : done s u i = .next (retired s u i) := rfl

theorem afterVcp_empty (h : t.queue = []) (k : Out) : afterVcp i s t k = k := by simp [afterVcp, h]

theorem withDrain_off (h : t.det = false) (k : Out) : withDrain s t i k = k := by simp [withDrain, h]

theorem withDrain_drained (h : t.drained = true) (k : Out) : withDrain s t i k = k := by
  simp [withDrain, h]

/-- Reading back the thread that completed. -/
theorem retired_thread (h : s.thread? s.cur = some t) {u : Thread} (hu : u.slot = t.slot) :
    (retired s u i).thread? s.cur = some (u.past i) := by
  have hs := s.thread?_slot h
  have hp : (u.past i).slot = s.cur := by simp [hu, hs]
  have := s.thread?_setThread_same (u.past i) (by rw [hp, h]; rfl)
  rwa [hp] at this

@[simp] theorem retired_mem (s : State) (u : Thread) (i : Instr) : (retired s u i).mem = s.mem := rfl
@[simp] theorem retired_parts (s : State) (u : Thread) (i : Instr) : (retired s u i).parts = s.parts := rfl
@[simp] theorem retired_cur (s : State) (u : Thread) (i : Instr) : (retired s u i).cur = s.cur := rfl

end
end Sys2Proof.Machine
end

