-- ==== Sys2Proof/Tests/Slice0.lean ====
section
/-! SUPPORT. Tests: ill-formed instructions are refused, words written out from the spec's encodings decode to what they stand for, single
steps give what the spec's tables and examples say, and every statement's hypotheses are met by a concrete state, clause by clause. -/

namespace Sys2Proof.Tests
open Sys2Proof Sys2Proof.Machine

set_option maxRecDepth 100000
set_option Elab.async false

noncomputable section

/-! ### Small states -/

/-- A thread in user mode, all registers zero, and one in supervisor mode with an identity map (MODE 0). -/
def user : Thread := { slot := 0, part := 0, launch := 1, rank := 0, pc := 0x1000 }
def sup : Thread := { user with sup := true }
def det : Thread := { user with det := true }

def vals (t : Thread) (l : List (Reg × BitVec 64)) : Thread := l.foldl (fun t p => t.wr p.1 p.2) t

/-- One thread on slot 0 of a partition of every cluster, with its unit window at 0x4000_0000 and its launch 1. -/
def sys (t : Thread) : State := { State.reset with threads := [t], parts := State.reset.parts.setIfInBounds 0 bootPart }

theorem unbound (t : Thread) (h : t.q = Vector.replicate 8 {}) (r : Reg) : t.boundQ r = none := by
  unfold Thread.boundQ
  rw [h]
  revert r
  decide

/-- A thread of slot 0 that stands in `s` with an empty queue and no bound register waits for nothing. -/
theorem ready (s : State) (t : Thread) (hs : s.thread? s.cur = some t) (hr : t.active? = true) (hv : t.queue = [])
    (hq : t.q = Vector.replicate 8 {}) (srcs dsts : List Reg) : Issues s t srcs dsts := idle_issues hs hr hv (unbound t hq) srcs dsts

theorem idle (t : Thread) (hs : t.slot = 0) (hr : t.active? = true) (hv : t.queue = []) (hq : t.q = Vector.replicate 8 {})
    (srcs dsts : List Reg) : Issues (sys t) t srcs dsts :=
  ready _ _ (by simp [sys, State.thread?, State.reset, hs]) hr hv hq srcs dsts

/-! ### Ill-formed instructions (R76): one for each kind of check -/

/-- SHI: imm[7:6] = 3, and a bit of imm[13:8] (R50). -/
theorem test_shi_rest : decode 0x03000019 = none ∧ decode 0x04000019 = none ∧ decode 0x02000019 = some (.sari 0 0 0) := by decide +kernel
/-- A compressed parcel of zeros (R72). -/
theorem test_zero_parcel : decode 0 = none := by decide +kernel
/-- A register class: BSET names a bank-set register below 8 (R51). -/
theorem test_bset_class : (Instr.bset .none 5 6 8).wellFormed = false ∧ (Instr.bset .none 5 6 7).wellFormed = true := by decide +kernel
/-- NSET names a group register below 8, NSET.F a stream register below 4 (R51, R414, R416). -/
theorem test_nset_class : (Instr.nset .none 5 8).wellFormed = false ∧ (Instr.nsetF .none 5 0 4).wellFormed = false := by decide +kernel
/-- An element-type code: AMO has no 8-bit and no 16-bit types (R374). -/
theorem test_amo_type : (Instr.amoAdd 0 5 6 7).wellFormed = false ∧ (Instr.amoAdd 2 5 6 7).wellFormed = true := by decide +kernel
/-- AMO.and has no f32 form, and AMOX only f32 and bf16 (R373, R376). -/
theorem test_amo_float : (Instr.amoAnd 9 5 6 7).wellFormed = false ∧ (Instr.amox 2 5 6).wellFormed = false := by decide +kernel
/-- LOOPN: one to six levels (R138). -/
theorem test_loopn_levels : (Instr.loopn 0 1 5 6).wellFormed = false ∧ (Instr.loopn 7 1 5 6).wellFormed = false := by decide +kernel
/-- A prefix of the wrong class: SCALE on a lattice instruction (R68). -/
theorem test_prefix_class : (Instr.aclr ⟨.scale 5, 0, false, 0, 0, 0⟩).wellFormed = false := by decide +kernel
/-- A rounding code that is reserved (R89). -/
theorem test_rounding_code : (Instr.fadd 6 5 6 7).wellFormed = false ∧ (Instr.fadd 7 5 6 7).wellFormed = true := by decide +kernel
/-- A mask register is m0 to m7 (R51, R176). -/
theorem test_mask_class : (Instr.mand ⟨.none, 0, false, false, 8, 0, 0⟩).wellFormed = false := by decide +kernel

/-! ### Words written out from the encodings of spec/03_encoding.md, bit by bit: the words of the program at the end of
spec/05_general_registers.md, and one of each other major -/

theorem test_program_words :
    decode 0x00100505 = some (.addi none 4 0 5) ∧ decode 0x0084A655 = some (.loopn 1 1 5 6) ∧ decode 0x1018C801 = some (.mul 6 6 8)
      ∧ decode 0x41C8 = some (.cAdd 8 7) ∧ decode 0x0000691D = some (.lui none 3 9) ∧ decode 0xFA44 = some (.cAddi 31 9)
      ∧ decode 0x30012A01 = some (.divw 0 9 10) ∧ decode 0x3814EB01 = some (.rem 5 7 11) ∧ decode 0x08000065 = some .exit
      ∧ decode 0x100C0061 = some (.trap 3) := by decide +kernel

/-! ### One word of every encoded instruction, written out from the tables of R49 to R73 with D = 5, A = 6 and B = 7 where the classes allow -/

/-- R60: major OP, N2. -/
theorem test_op_words :
    decode 0x001CC501 = some (.add 7 6 5) ∧ decode 0x081CC501 = some (.sub 7 6 5) ∧ decode 0x101CC501 = some (.mul 7 6 5)
      ∧ decode 0x181CC501 = some (.mulh 7 6 5) ∧ decode 0x201CC501 = some (.mulhw 7 6 5) ∧ decode 0x281CC501 = some (.div 7 6 5)
      ∧ decode 0x301CC501 = some (.divw 7 6 5) ∧ decode 0x381CC501 = some (.rem 7 6 5) ∧ decode 0x401CC501 = some (.remw 7 6 5)
      ∧ decode 0x481CC501 = some (.and 7 6 5) ∧ decode 0x501CC501 = some (.or 7 6 5) ∧ decode 0x581CC501 = some (.xor 7 6 5)
      ∧ decode 0x601CC501 = some (.shl 7 6 5) ∧ decode 0x681CC501 = some (.shr 7 6 5) ∧ decode 0x701CC501 = some (.sar 7 6 5)
      ∧ decode 0x781CC501 = some (.slt 7 6 5) ∧ decode 0x801CC501 = some (.sltw 7 6 5) ∧ decode 0x881CC501 = some (.min 7 6 5)
      ∧ decode 0x901CC501 = some (.max 7 6 5) ∧ decode 0x981CC501 = some (.minw 7 6 5) ∧ decode 0xA01CC501 = some (.maxw 7 6 5)
      ∧ decode 0xA800C501 = some (.clz 6 5) ∧ decode 0xB000C501 = some (.ctz 6 5) ∧ decode 0xB800C501 = some (.popc 6 5) := by decide +kernel

/-- R49 to R51, R71: the I and L formats, and EXT. -/
theorem test_immediate_words :
    decode 0x8004C505 = some (.addi none 0x2001 6 5) ∧ decode 0x8004C509 = some (.andi none 0x2001 6 5)
      ∧ decode 0x8004C50D = some (.ori none 0x2001 6 5) ∧ decode 0x8004C511 = some (.xori none 0x2001 6 5)
      ∧ decode 0x8004C515 = some (.slti none 0x2001 6 5) ∧ decode 0x00A4C519 = some (.shli 41 6 5) ∧ decode 0x01A4C519 = some (.shri 41 6 5)
      ∧ decode 0x02A4C519 = some (.sari 41 6 5) ∧ decode 0x8000251D = some (.lui none 0x40001 5)
      ∧ decode 0x80002521 = some (.addpc none 0x40001 5) ∧ decode 0x8004C5058000010F = some (.addi (some 0x800001) 0x2001 6 5) := by decide +kernel

/-- R49, R53: loads, stores and scalar atomics. -/
theorem test_memory_words :
    decode 0x8078C525 = some (.ld none 0x403 6 6 5) ∧ decode 0x851CC329 = some (.st none 0x21 2 7 6 3)
      ∧ decode 0x0D00C52D = some (.ldAcq 3 2 6 5) ∧ decode 0x309CC02D = some (.stRel 4 1 7 6) ∧ decode 0x301CC531 = some (.amoAdd 6 7 6 5)
      ∧ decode 0x309CC531 = some (.amoMin 6 7 6 5) ∧ decode 0x311CC531 = some (.amoMax 6 7 6 5) ∧ decode 0x319CC531 = some (.amoAnd 6 7 6 5)
      ∧ decode 0x321CC531 = some (.amoOr 6 7 6 5) ∧ decode 0x329CC531 = some (.amoXor 6 7 6 5) ∧ decode 0x331CC531 = some (.amoSwap 6 7 6 5)
      ∧ decode 0x339CC531 = some (.amoCas 6 7 6 5) ∧ decode 0x4C1CC031 = some (.amox 9 7 6) := by decide +kernel

/-- R49: branches, jumps and LOOPN. -/
theorem test_branch_words :
    decode 0x809CD235 = some (.beq none 0x101 7 6 0x12) ∧ decode 0x809CD239 = some (.bne none 0x101 7 6 0x12)
      ∧ decode 0x809CD23D = some (.blt none 0x101 7 6 0x12) ∧ decode 0x809CD241 = some (.bge none 0x101 7 6 0x12)
      ∧ decode 0x809CD245 = some (.bltw none 0x101 7 6 0x12) ∧ decode 0x809CD249 = some (.bgew none 0x101 7 6 0x12)
      ∧ decode 0x8000254D = some (.jal none 0x40001 5) ∧ decode 0x8004C551 = some (.jalr none 0x2001 6 5)
      ∧ decode 0x019CC555 = some (.loopn 3 7 6 5) := by decide +kernel

/-- R60, R61: the FP and FMA majors. -/
theorem test_float_words :
    decode 0x019CC559 = some (.fadd 3 7 6 5) ∧ decode 0x099CC559 = some (.fsub 3 7 6 5) ∧ decode 0x119CC559 = some (.fmul 3 7 6 5)
      ∧ decode 0x199CC559 = some (.fdiv 3 7 6 5) ∧ decode 0x2180C559 = some (.fsqrt 3 6 5) ∧ decode 0x281CC559 = some (.fmin 7 6 5)
      ∧ decode 0x301CC559 = some (.fmax 7 6 5) ∧ decode 0x3A1CC559 = some (.fcmp 4 7 6 5) ∧ decode 0x408CC559 = some (.fcvt 1 3 6 5)
      ∧ decode 0x4800C559 = some (.fclass 6 5) ∧ decode 0x049CC55D = some (.fma 9 7 6 5) := by decide +kernel

/-- R58, R60, R444: the SYS major. -/
theorem test_system_words :
    decode 0x00300561 = some (.mfs 12 5) ∧ decode 0x0804C061 = some (.mts 1 6) ∧ decode 0x0800C061 = some (.mtsFrm 6)
      ∧ decode 0x0808C061 = some (.mtsFflags 6) ∧ decode 0x080CC061 = some (.mtsSat 6) ∧ decode 0x0810C061 = some (.mtsEfc 6)
      ∧ decode 0x0818C061 = some (.mtsTstat 6) ∧ decode 0x081CC061 = some (.mtsPrio 6) ∧ decode 0x0820C061 = some (.mtsWshare 6)
      ∧ decode 0x0824C061 = some (.mtsAspace 6) ∧ decode 0x0830C061 = some (.mtsIshape 6) ∧ decode 0x107C0061 = some (.trap 31)
      ∧ decode 0x18000061 = some .eret ∧ decode 0x20000061 = some .halt ∧ decode 0x2A000061 = some (.fence 4)
      ∧ decode 0x301CC061 = some (.iflush 7 6) ∧ decode 0x38000061 = some .isync ∧ decode 0x401CC061 = some (.tlbinv 7 6)
      ∧ decode 0x4800C061 = some (.tlbinvA 6) := by decide +kernel

/-- R146, R178: the THR, VCFG and VCFGI majors. -/
theorem test_thread_words :
    decode 0x0000C565 = some (.spawn 6 5) ∧ decode 0x08000065 = some .exit ∧ decode 0x1000C565 = some (.join 6 5)
      ∧ decode 0x1800C565 = some (.leave 6 5) ∧ decode 0x2000C565 = some (.barg 6 5) ∧ decode 0x2800C565 = some (.yield 6 5)
      ∧ decode 0x3000C565 = some (.wpush 6 5) ∧ decode 0x38000565 = some (.wpop 5) ∧ decode 0x4000C565 = some (.wsteal 6 5)
      ∧ decode 0x481CC565 = some (.claim 7 6 5) ∧ decode 0x521CC565 = some (.waitw 4 7 6 5) ∧ decode 0x5800C565 = some (.waitt 6 5)
      ∧ decode 0x001CC569 = some (.vcfg 7 6 5) ∧ decode 0x00800569 = some (.vcfgVl 5) ∧ decode 0x01000569 = some (.vcfgVtype 5)
      ∧ decode 0x01800569 = some (.vcfgVlmax 5) ∧ decode 0x02000569 = some (.vcfgVcp 5) ∧ decode 0x02800569 = some (.vcfgVstart 5)
      ∧ decode 0x03000569 = some (.vcfgRlen 5) ∧ decode 0x00ACC56D = some (.vcfgi none 0x2B 6 5) := by decide +kernel

/-- R252, R286, R296, R310, R321, R414: the CTL major. -/
theorem test_control_words :
    decode 0x0380C571 = some (.sbind .none 7 6 5) ∧ decode 0x07800571 = some (.sbindQGeneral .none 7 5)
      ∧ decode 0x07840571 = some (.sbindQVector .none 7 5) ∧ decode 0x0B800571 = some (.sunbind .none 7 5)
      ∧ decode 0x0F800571 = some (.sunbindQ .none 7 5) ∧ decode 0x1380C071 = some (.sskip .none 7 6) ∧ decode 0x1B800571 = some (.spos .none 7 5)
      ∧ decode 0x23800071 = some (.stbar .none 7) ∧ decode 0x2800C571 = some (.waitc .none 6 5) ∧ decode 0x301CC571 = some (.bset .none 7 6 5)
      ∧ decode 0x381CC071 = some (.tcfg .none 7 6) ∧ decode 0x40000571 = some (.chwait .none 5) ∧ decode 0x4800C571 = some (.nset .none 6 5)
      ∧ decode 0x48A4C371 = some (.nsetF .none 9 6 3) ∧ decode 0x5000C571 = some (.nsig .none 6 5)
      ∧ decode 0x5080C571 = some (.nsigRank .none 6 5) ∧ decode 0x5100C571 = some (.nsigCount .none 6 5)
      ∧ decode 0x5180C571 = some (.nsigSeq .none 6 5)
      ∧ decode 0x380C57100010007 = some (.sbind (.hireg 0 false false false true 0) 7 6 5) := by decide +kernel

/-- R336, R348, R75: the TMAP, VERS and HINT majors, and the encodings that the chapters print. -/
theorem test_version_words :
    decode 0x0000C575 = some (.tmapset 6 5) ∧ decode 0x0800C575 = some (.tfetch 6 5) ∧ decode 0x1000C575 = some (.tevict 6 5)
      ∧ decode 0x189CC975 = some (.tlog 1 7 6 9) ∧ decode 0x2000C575 = some (.tcompact 6 5) ∧ decode 0x2800C575 = some (.tstat 6 5)
      ∧ decode 0x0000C579 = some (.vpubl 6 5) ∧ decode 0x0080C579 = some (.vpublWait 6 5) ∧ decode 0x011CC579 = some (.vpublAt 7 6 5)
      ∧ decode 0x019CC579 = some (.vpublWaitAt 7 6 5) ∧ decode 0x0800C579 = some (.toksw 6 5) ∧ decode 0x089CC579 = some (.tokswMin 7 6 5)
      ∧ decode 0x101CC079 = some (.sttok 7 6) ∧ decode 0x1800C579 = some (.vpin 6 5) ∧ decode 0x2000C579 = some (.vunpin 6 5)
      ∧ decode 0xABCDEF7D = some (.hint 0xABCDEF) ∧ decode 0x0080A679 = some (.vpublWait 5 6) ∧ decode 0x089D0979 = some (.tokswMin 7 8 9)
      ∧ decode 0x102D4079 = some (.sttok 11 10) ∧ decode 0x1801AC79 = some (.vpin 13 12) ∧ decode 0x48A40071 = some (.nsetF .none 9 0 0)
      ∧ decode 0x50800D71 = some (.nsigRank .none 0 13) := by decide +kernel

/-- R72, R73: the 16-bit forms. -/
theorem test_short_words :
    decode 0x0000A804 = some (.cHint 21) ∧ decode 0x0000AA44 = some (.cAddi 21 9) ∧ decode 0x0000AA48 = some (.cAdd 21 9)
      ∧ decode 0x0000AA4C = some (.cSub 21 9) ∧ decode 0x0000AA50 = some (.cAnd 21 9) ∧ decode 0x0000AA54 = some (.cOr 21 9)
      ∧ decode 0x0000AA58 = some (.cXor 21 9) ∧ decode 0x0000AA5C = some (.cShli 21 9) ∧ decode 0x0000AA60 = some (.cShri 21 9)
      ∧ decode 0x0000AA64 = some (.cSari 21 9) ∧ decode 0x0000AA68 = some (.cLdI64 21 9) ∧ decode 0x0000AA6C = some (.cStI64 21 9)
      ∧ decode 0x0000AA70 = some (.cBeq 21 9) ∧ decode 0x0000AA74 = some (.cBne 21 9) ∧ decode 0x0000AA7C = some (.cMv 21 9)
      ∧ decode 0x00000278 = some (.cJr 9) ∧ decode 0x00000A78 = some (.cJalr 9) ∧ decode 0x00004A06 = some (.cvVaddI32 9 8)
      ∧ decode 0x00004A0A = some (.cvVsubI32 9 8) ∧ decode 0x00004A0E = some (.cvVmulI32 9 8) ∧ decode 0x00004A12 = some (.cvVmaccI32 9 8)
      ∧ decode 0x00004A16 = some (.cvVmaxI32 9 8) ∧ decode 0x00004A1A = some (.cvVxorI32 9 8) ∧ decode 0x00004A1E = some (.cvVfaddF32 9 8)
      ∧ decode 0x00004A22 = some (.cvVfmulF32 9 8) ∧ decode 0x00004A26 = some (.cvVfmaF32 9 8) ∧ decode 0x00004A2A = some (.cvVfmaxF32 9 8)
      ∧ decode 0x00004A2E = some (.cvVfaddBf16 9 8) ∧ decode 0x00004A32 = some (.cvVfmulBf16 9 8) ∧ decode 0x00004A36 = some (.cvVfmaBf16 9 8)
      ∧ decode 0x00004A3A = some (.cvVfmaxBf16 9 8) := by decide +kernel

/-- R62: integer group A, OP 0 to 7. -/
theorem test_viaFirst_words :
    decode 0x0D9CC581 = some (.vaddVv ⟨.none, 6, true, true, 7, 6, 5⟩) ∧ decode 0x0D9CC585 = some (.vaddVg ⟨.none, 6, true, true, 7, 6, 5⟩)
      ∧ decode 0x0D9CC589 = some (.vaddVi ⟨.none, 6, true, true, 7, 6, 5⟩) ∧ decode 0x1D9CC581 = some (.vsubVv ⟨.none, 6, true, true, 7, 6, 5⟩)
      ∧ decode 0x1D9CC585 = some (.vsubVg ⟨.none, 6, true, true, 7, 6, 5⟩) ∧ decode 0x2D9CC585 = some (.vrsubVg ⟨.none, 6, true, true, 7, 6, 5⟩)
      ∧ decode 0x2D9CC589 = some (.vrsubVi ⟨.none, 6, true, true, 7, 6, 5⟩) ∧ decode 0x3D9CC581 = some (.vmulVv ⟨.none, 6, true, true, 7, 6, 5⟩)
      ∧ decode 0x3D9CC585 = some (.vmulVg ⟨.none, 6, true, true, 7, 6, 5⟩) ∧ decode 0x4D9CC581 = some (.vmulhVv ⟨.none, 6, true, true, 7, 6, 5⟩)
      ∧ decode 0x4D9CC585 = some (.vmulhVg ⟨.none, 6, true, true, 7, 6, 5⟩) ∧ decode 0x5D9CC581 = some (.vmaccVv ⟨.none, 6, true, true, 7, 6, 5⟩)
      ∧ decode 0x5D9CC585 = some (.vmaccVg ⟨.none, 6, true, true, 7, 6, 5⟩)
      ∧ decode 0x6D9CC581 = some (.vnmsacVv ⟨.none, 6, true, true, 7, 6, 5⟩)
      ∧ decode 0x6D9CC585 = some (.vnmsacVg ⟨.none, 6, true, true, 7, 6, 5⟩)
      ∧ decode 0x7D9CC581 = some (.vwaddVv ⟨.none, 6, true, true, 7, 6, 5⟩)
      ∧ decode 0x7D9CC585 = some (.vwaddVg ⟨.none, 6, true, true, 7, 6, 5⟩) := by decide +kernel

/-- R62: integer group A, OP 8 to 15. -/
theorem test_viaLast_words :
    decode 0x8D9CC581 = some (.vwmulVv ⟨.none, 6, true, true, 7, 6, 5⟩) ∧ decode 0x8D9CC585 = some (.vwmulVg ⟨.none, 6, true, true, 7, 6, 5⟩)
      ∧ decode 0x9D9CC581 = some (.vwmaccVv ⟨.none, 6, true, true, 7, 6, 5⟩)
      ∧ decode 0x9D9CC585 = some (.vwmaccVg ⟨.none, 6, true, true, 7, 6, 5⟩)
      ∧ decode 0xAD9CC581 = some (.vnshrVv ⟨.none, 6, true, true, 7, 6, 5⟩) ∧ decode 0xAD9CC585 = some (.vnshrVg ⟨.none, 6, true, true, 7, 6, 5⟩)
      ∧ decode 0xAD9CC589 = some (.vnshrVi ⟨.none, 6, true, true, 7, 6, 5⟩) ∧ decode 0xBD9CC581 = some (.vsaddVv ⟨.none, 6, true, true, 7, 6, 5⟩)
      ∧ decode 0xBD9CC585 = some (.vsaddVg ⟨.none, 6, true, true, 7, 6, 5⟩) ∧ decode 0xBD9CC589 = some (.vsaddVi ⟨.none, 6, true, true, 7, 6, 5⟩)
      ∧ decode 0xCD9CC581 = some (.vssubVv ⟨.none, 6, true, true, 7, 6, 5⟩) ∧ decode 0xCD9CC585 = some (.vssubVg ⟨.none, 6, true, true, 7, 6, 5⟩)
      ∧ decode 0xDD9CC581 = some (.vavgVv ⟨.none, 6, true, true, 7, 6, 5⟩) ∧ decode 0xDD9CC585 = some (.vavgVg ⟨.none, 6, true, true, 7, 6, 5⟩)
      ∧ decode 0xED9CC581 = some (.vminVv ⟨.none, 6, true, true, 7, 6, 5⟩) ∧ decode 0xED9CC585 = some (.vminVg ⟨.none, 6, true, true, 7, 6, 5⟩)
      ∧ decode 0xFD9CC581 = some (.vmaxVv ⟨.none, 6, true, true, 7, 6, 5⟩)
      ∧ decode 0xFD9CC585 = some (.vmaxVg ⟨.none, 6, true, true, 7, 6, 5⟩) := by decide +kernel

/-- R62: integer group B, OP 0 to 6. -/
theorem test_vibFirst_words :
    decode 0x079CC58D = some (.vandVv ⟨.none, 3, true, true, 7, 6, 5⟩) ∧ decode 0x079CC591 = some (.vandVg ⟨.none, 3, true, true, 7, 6, 5⟩)
      ∧ decode 0x079CC595 = some (.vandVi ⟨.none, 3, true, true, 7, 6, 5⟩) ∧ decode 0x179CC58D = some (.vorVv ⟨.none, 3, true, true, 7, 6, 5⟩)
      ∧ decode 0x179CC591 = some (.vorVg ⟨.none, 3, true, true, 7, 6, 5⟩) ∧ decode 0x179CC595 = some (.vorVi ⟨.none, 3, true, true, 7, 6, 5⟩)
      ∧ decode 0x279CC58D = some (.vxorVv ⟨.none, 3, true, true, 7, 6, 5⟩) ∧ decode 0x279CC591 = some (.vxorVg ⟨.none, 3, true, true, 7, 6, 5⟩)
      ∧ decode 0x279CC595 = some (.vxorVi ⟨.none, 3, true, true, 7, 6, 5⟩) ∧ decode 0x379CC58D = some (.vshlVv ⟨.none, 3, true, true, 7, 6, 5⟩)
      ∧ decode 0x379CC591 = some (.vshlVg ⟨.none, 3, true, true, 7, 6, 5⟩) ∧ decode 0x379CC595 = some (.vshlVi ⟨.none, 3, true, true, 7, 6, 5⟩)
      ∧ decode 0x479CC58D = some (.vshrVv ⟨.none, 3, true, true, 7, 6, 5⟩) ∧ decode 0x479CC591 = some (.vshrVg ⟨.none, 3, true, true, 7, 6, 5⟩)
      ∧ decode 0x479CC595 = some (.vshrVi ⟨.none, 3, true, true, 7, 6, 5⟩) ∧ decode 0x579CC58D = some (.vsarVv ⟨.none, 3, true, true, 7, 6, 5⟩)
      ∧ decode 0x579CC591 = some (.vsarVg ⟨.none, 3, true, true, 7, 6, 5⟩) ∧ decode 0x579CC595 = some (.vsarVi ⟨.none, 3, true, true, 7, 6, 5⟩)
      ∧ decode 0x679CC58D = some (.vmergeVv ⟨.none, 3, true, true, 7, 6, 5⟩)
      ∧ decode 0x679CC591 = some (.vmergeVg ⟨.none, 3, true, true, 7, 6, 5⟩)
      ∧ decode 0x679CC595 = some (.vmergeVi ⟨.none, 3, true, true, 7, 6, 5⟩) := by decide +kernel

/-- R62: integer group B, OP 7 to 13. -/
theorem test_vibLast_words :
    decode 0x779C058D = some (.vmvVv ⟨.none, 3, true, true, 7, 0, 5⟩) ∧ decode 0x779C0591 = some (.vmvVg ⟨.none, 3, true, true, 7, 0, 5⟩)
      ∧ decode 0x779C0595 = some (.vmvVi ⟨.none, 3, true, true, 7, 0, 5⟩) ∧ decode 0x879CC58D = some (.vcmpEqVv ⟨.none, 3, true, true, 7, 6, 5⟩)
      ∧ decode 0x879CC591 = some (.vcmpEqVg ⟨.none, 3, true, true, 7, 6, 5⟩)
      ∧ decode 0x879CC595 = some (.vcmpEqVi ⟨.none, 3, true, true, 7, 6, 5⟩)
      ∧ decode 0x979CC58D = some (.vcmpNeVv ⟨.none, 3, true, true, 7, 6, 5⟩)
      ∧ decode 0x979CC591 = some (.vcmpNeVg ⟨.none, 3, true, true, 7, 6, 5⟩)
      ∧ decode 0x979CC595 = some (.vcmpNeVi ⟨.none, 3, true, true, 7, 6, 5⟩)
      ∧ decode 0xA79CC58D = some (.vcmpLtVv ⟨.none, 3, true, true, 7, 6, 5⟩)
      ∧ decode 0xA79CC591 = some (.vcmpLtVg ⟨.none, 3, true, true, 7, 6, 5⟩)
      ∧ decode 0xA79CC595 = some (.vcmpLtVi ⟨.none, 3, true, true, 7, 6, 5⟩)
      ∧ decode 0xB79CC58D = some (.vcmpLeVv ⟨.none, 3, true, true, 7, 6, 5⟩)
      ∧ decode 0xB79CC591 = some (.vcmpLeVg ⟨.none, 3, true, true, 7, 6, 5⟩)
      ∧ decode 0xB79CC595 = some (.vcmpLeVi ⟨.none, 3, true, true, 7, 6, 5⟩)
      ∧ decode 0xC79CC58D = some (.vcmpGtVv ⟨.none, 3, true, true, 7, 6, 5⟩)
      ∧ decode 0xC79CC591 = some (.vcmpGtVg ⟨.none, 3, true, true, 7, 6, 5⟩)
      ∧ decode 0xC79CC595 = some (.vcmpGtVi ⟨.none, 3, true, true, 7, 6, 5⟩)
      ∧ decode 0xD79CC58D = some (.vcmpGeVv ⟨.none, 3, true, true, 7, 6, 5⟩)
      ∧ decode 0xD79CC591 = some (.vcmpGeVg ⟨.none, 3, true, true, 7, 6, 5⟩)
      ∧ decode 0xD79CC595 = some (.vcmpGeVi ⟨.none, 3, true, true, 7, 6, 5⟩) := by decide +kernel

/-- R62: the VF majors. -/
theorem test_vf_words :
    decode 0x059CC599 = some (.vfaddVv ⟨.none, 2, true, true, 7, 6, 5⟩) ∧ decode 0x059CC59D = some (.vfaddVg ⟨.none, 2, true, true, 7, 6, 5⟩)
      ∧ decode 0x159CC599 = some (.vfsubVv ⟨.none, 2, true, true, 7, 6, 5⟩) ∧ decode 0x159CC59D = some (.vfsubVg ⟨.none, 2, true, true, 7, 6, 5⟩)
      ∧ decode 0x259CC599 = some (.vfmulVv ⟨.none, 2, true, true, 7, 6, 5⟩) ∧ decode 0x259CC59D = some (.vfmulVg ⟨.none, 2, true, true, 7, 6, 5⟩)
      ∧ decode 0x359CC599 = some (.vfmaVv ⟨.none, 2, true, true, 7, 6, 5⟩) ∧ decode 0x359CC59D = some (.vfmaVg ⟨.none, 2, true, true, 7, 6, 5⟩)
      ∧ decode 0x459CC599 = some (.vfnmaVv ⟨.none, 2, true, true, 7, 6, 5⟩) ∧ decode 0x459CC59D = some (.vfnmaVg ⟨.none, 2, true, true, 7, 6, 5⟩)
      ∧ decode 0x559CC599 = some (.vfdivVv ⟨.none, 2, true, true, 7, 6, 5⟩) ∧ decode 0x559CC59D = some (.vfdivVg ⟨.none, 2, true, true, 7, 6, 5⟩)
      ∧ decode 0x6580C599 = some (.vfsqrt ⟨.none, 2, true, true, 0, 6, 5⟩) ∧ decode 0x759CC599 = some (.vfminVv ⟨.none, 2, true, true, 7, 6, 5⟩)
      ∧ decode 0x759CC59D = some (.vfminVg ⟨.none, 2, true, true, 7, 6, 5⟩) ∧ decode 0x859CC599 = some (.vfmaxVv ⟨.none, 2, true, true, 7, 6, 5⟩)
      ∧ decode 0x859CC59D = some (.vfmaxVg ⟨.none, 2, true, true, 7, 6, 5⟩)
      ∧ decode 0x959CC599 = some (.vfcmpEqVv ⟨.none, 2, true, true, 7, 6, 5⟩)
      ∧ decode 0x959CC59D = some (.vfcmpEqVg ⟨.none, 2, true, true, 7, 6, 5⟩)
      ∧ decode 0xA59CC599 = some (.vfcmpNeVv ⟨.none, 2, true, true, 7, 6, 5⟩)
      ∧ decode 0xA59CC59D = some (.vfcmpNeVg ⟨.none, 2, true, true, 7, 6, 5⟩)
      ∧ decode 0xB59CC599 = some (.vfcmpLtVv ⟨.none, 2, true, true, 7, 6, 5⟩)
      ∧ decode 0xB59CC59D = some (.vfcmpLtVg ⟨.none, 2, true, true, 7, 6, 5⟩)
      ∧ decode 0xC59CC599 = some (.vfcmpLeVv ⟨.none, 2, true, true, 7, 6, 5⟩)
      ∧ decode 0xC59CC59D = some (.vfcmpLeVg ⟨.none, 2, true, true, 7, 6, 5⟩)
      ∧ decode 0xD59CC599 = some (.vfcmpGtVv ⟨.none, 2, true, true, 7, 6, 5⟩)
      ∧ decode 0xD59CC59D = some (.vfcmpGtVg ⟨.none, 2, true, true, 7, 6, 5⟩)
      ∧ decode 0xE59CC599 = some (.vfcmpGeVv ⟨.none, 2, true, true, 7, 6, 5⟩)
      ∧ decode 0xE59CC59D = some (.vfcmpGeVg ⟨.none, 2, true, true, 7, 6, 5⟩)
      ∧ decode 0xF59CC599 = some (.vfcmpUnVv ⟨.none, 2, true, true, 7, 6, 5⟩)
      ∧ decode 0xF59CC59D = some (.vfcmpUnVg ⟨.none, 2, true, true, 7, 6, 5⟩) := by decide +kernel

/-- R62: the VMP and VRED majors. -/
theorem test_maskReduce_words :
    decode 0x009CC5A1 = some (.mand ⟨.none, 0, false, true, 7, 6, 5⟩) ∧ decode 0x109CC5A1 = some (.mor ⟨.none, 0, false, true, 7, 6, 5⟩)
      ∧ decode 0x209CC5A1 = some (.mxor ⟨.none, 0, false, true, 7, 6, 5⟩) ∧ decode 0x3080C5A1 = some (.mnot ⟨.none, 0, false, true, 0, 6, 5⟩)
      ∧ decode 0x4180C5A1 = some (.mpopc ⟨.none, 0, true, true, 0, 6, 5⟩) ∧ decode 0x5180C5A1 = some (.mffs ⟨.none, 0, true, true, 0, 6, 5⟩)
      ∧ decode 0x6480C5A1 = some (.mset ⟨.none, 2, false, true, 0, 6, 5⟩) ∧ decode 0x768000A1 = some (.vreconf ⟨.none, 3, false, true, 0, 0, 0⟩)
      ∧ decode 0x859CC5A1 = some (.vslideu ⟨.none, 2, true, true, 7, 6, 5⟩) ∧ decode 0x959CC5A1 = some (.vslided ⟨.none, 2, true, true, 7, 6, 5⟩)
      ∧ decode 0xA59CC5A1 = some (.vgather ⟨.none, 2, true, true, 7, 6, 5⟩)
      ∧ decode 0xB49CC5A1 = some (.vcompress ⟨.none, 2, false, true, 7, 6, 5⟩)
      ∧ decode 0xC580C5A1 = some (.viota ⟨.none, 2, true, true, 0, 6, 5⟩) ∧ decode 0xD49CC5A1 = some (.vext ⟨.none, 2, false, true, 7, 6, 5⟩)
      ∧ decode 0xE49CC5A1 = some (.vins ⟨.none, 2, false, true, 7, 6, 5⟩) ∧ decode 0x079CC5A5 = some (.vredsum ⟨.none, 3, true, true, 7, 6, 5⟩)
      ∧ decode 0x179CC5A5 = some (.vredmax ⟨.none, 3, true, true, 7, 6, 5⟩) ∧ decode 0x279CC5A5 = some (.vredmin ⟨.none, 3, true, true, 7, 6, 5⟩)
      ∧ decode 0x359CC5A5 = some (.vfredsum ⟨.none, 2, true, true, 7, 6, 5⟩)
      ∧ decode 0x459CC5A5 = some (.vfredmax ⟨.none, 2, true, true, 7, 6, 5⟩)
      ∧ decode 0x559CC5A5 = some (.vfredmin ⟨.none, 2, true, true, 7, 6, 5⟩)
      ∧ decode 0x659CC5A5 = some (.vfredms ⟨.none, 2, true, true, 7, 6, 5⟩) ∧ decode 0x738CC5A5 = some (.vfcvt ⟨.none, 1, true, true, 3, 6, 5⟩)
      ∧ decode 0x8384C5A5 = some (.vfcvtEf ⟨.none, 1, true, true, 1, 6, 5⟩) ∧ decode 0xC00000A5 = some (.vrec ⟨.none, 0, false, false, 0, 0, 0⟩)
      ∧ decode 0xD00000A5 = some (.vendrec ⟨.none, 0, false, false, 0, 0, 0⟩)
      ∧ decode 0xE000C0A5 = some (.vreplay ⟨.none, 0, false, false, 0, 6, 0⟩) := by decide +kernel

/-- R64: the LAT and TREG majors. -/
theorem test_lattice_words :
    decode 0x008025A9 = some (.aalloc ⟨.none, 0, true, 0, 1, 5⟩) ∧ decode 0x108025A9 = some (.aallocWait ⟨.none, 1, true, 0, 1, 5⟩)
      ∧ decode 0x018001A9 = some (.afree ⟨.none, 0, true, 0, 0, 1⟩) ∧ decode 0x028001A9 = some (.aclr ⟨.none, 0, true, 0, 0, 1⟩)
      ∧ decode 0x438CC1A9 = some (.ldws ⟨.none, 4, true, 3, 6, 1⟩) ∧ decode 0x048001A9 = some (.swpl ⟨.none, 0, true, 0, 0, 1⟩)
      ∧ decode 0x159CC1A9 = some (.mstream ⟨.none, 1, true, 7, 6, 1⟩) ∧ decode 0x169CC1A9 = some (.mopa ⟨.none, 1, true, 7, 6, 1⟩)
      ∧ decode 0x179CC1A9 = some (.mops ⟨.none, 1, true, 7, 6, 1⟩) ∧ decode 0x389C25A9 = some (.axtr ⟨.none, 3, true, 7, 1, 5⟩)
      ∧ decode 0x399C25A9 = some (.axtc ⟨.none, 3, true, 7, 1, 5⟩) ∧ decode 0x0A80C1A9 = some (.asave ⟨.none, 0, true, 0, 6, 1⟩)
      ∧ decode 0x0B80C1A9 = some (.aload ⟨.none, 0, true, 0, 6, 1⟩) ∧ decode 0x0C80C1A9 = some (.aaddi ⟨.none, 0, true, 0, 6, 1⟩)
      ∧ decode 0x109CC3AD = some (.trow ⟨.none, 1, true, 7, 6, 3⟩) ∧ decode 0x119C65AD = some (.tcol ⟨.none, 1, true, 7, 3, 5⟩)
      ∧ decode 0x129CC3AD = some (.tld ⟨.none, 1, true, 7, 6, 3⟩) ∧ decode 0x139CC3AD = some (.tst ⟨.none, 1, true, 7, 6, 3⟩) := by decide +kernel

/-- R63: the VLD, VST, LDP and VPS majors. -/
theorem test_vectorMemory_words :
    decode 0x1380C5B1 = some (.vld ⟨.none, 9, true, true, 0, 6, 5⟩) ∧ decode 0x359CC5B1 = some (.vlds ⟨.none, 10, true, true, 7, 6, 5⟩)
      ∧ decode 0x559CC5B1 = some (.vldx ⟨.none, 10, true, true, 7, 6, 5⟩) ∧ decode 0x759CC5B1 = some (.vldseg ⟨.none, 10, true, true, 7, 6, 5⟩)
      ∧ decode 0x959CC5B1 = some (.vldff ⟨.none, 10, true, true, 7, 6, 5⟩) ∧ decode 0xA080C3B1 = some (.cbld ⟨.none, 0, false, true, 0, 6, 3⟩)
      ∧ decode 0xC080C5B1 = some (.vfill ⟨.none, 0, false, true, 0, 6, 5⟩) ∧ decode 0x1380C5B5 = some (.vst ⟨.none, 9, true, true, 0, 6, 5⟩)
      ∧ decode 0x359CC5B5 = some (.vsts ⟨.none, 10, true, true, 7, 6, 5⟩) ∧ decode 0x559CC5B5 = some (.vstx ⟨.none, 10, true, true, 7, 6, 5⟩)
      ∧ decode 0x759CC5B5 = some (.vstseg ⟨.none, 10, true, true, 7, 6, 5⟩) ∧ decode 0x8080C5B5 = some (.vspill ⟨.none, 0, false, true, 0, 6, 5⟩)
      ∧ decode 0x139CC5B9 = some (.ldpSum ⟨.none, 9, true, true, 7, 6, 5⟩) ∧ decode 0x339CC5B9 = some (.ldpMax ⟨.none, 9, true, true, 7, 6, 5⟩)
      ∧ decode 0x539CC5B9 = some (.ldpMin ⟨.none, 9, true, true, 7, 6, 5⟩)
      ∧ decode 0x739CC5B9 = some (.ldpMaxsum ⟨.none, 9, true, true, 7, 6, 5⟩)
      ∧ decode 0x8D9CC5B9 = some (.ldpAnd ⟨.none, 6, true, true, 7, 6, 5⟩) ∧ decode 0xAD9CC5B9 = some (.ldpOr ⟨.none, 6, true, true, 7, 6, 5⟩)
      ∧ decode 0xCD9CC5B9 = some (.ldpXor ⟨.none, 6, true, true, 7, 6, 5⟩) ∧ decode 0xF39CC5B9 = some (.ldpFirst ⟨.none, 9, true, true, 7, 6, 5⟩)
      ∧ decode 0x139CC5BD = some (.stp ⟨.none, 9, true, true, 7, 6, 5⟩)
      ∧ decode 0x219CC5BD = some (.chrun ⟨.none, 0, true, true, 7, 6, 5⟩) := by decide +kernel

/-- R63: the VAMO and VAMOO majors. -/
theorem test_vectorAtomic_words :
    decode 0x0D9CC5C1 = some (.vamoAdd ⟨.none, 6, true, true, 7, 6, 5⟩) ∧ decode 0x2D9CC5C1 = some (.vamoMin ⟨.none, 6, true, true, 7, 6, 5⟩)
      ∧ decode 0x4D9CC5C1 = some (.vamoMax ⟨.none, 6, true, true, 7, 6, 5⟩) ∧ decode 0x6D9CC5C1 = some (.vamoAnd ⟨.none, 6, true, true, 7, 6, 5⟩)
      ∧ decode 0x8D9CC5C1 = some (.vamoOr ⟨.none, 6, true, true, 7, 6, 5⟩) ∧ decode 0xAD9CC5C1 = some (.vamoXor ⟨.none, 6, true, true, 7, 6, 5⟩)
      ∧ decode 0xCD9CC5C1 = some (.vamoSwap ⟨.none, 6, true, true, 7, 6, 5⟩)
      ∧ decode 0xED9CC5C1 = some (.vamoCas ⟨.none, 6, true, true, 7, 6, 5⟩)
      ∧ decode 0x0D9CC5C5 = some (.vamooAdd ⟨.none, 6, true, true, 7, 6, 5⟩)
      ∧ decode 0x2D9CC5C5 = some (.vamooMin ⟨.none, 6, true, true, 7, 6, 5⟩)
      ∧ decode 0x4D9CC5C5 = some (.vamooMax ⟨.none, 6, true, true, 7, 6, 5⟩)
      ∧ decode 0x6D9CC5C5 = some (.vamooAnd ⟨.none, 6, true, true, 7, 6, 5⟩)
      ∧ decode 0x8D9CC5C5 = some (.vamooOr ⟨.none, 6, true, true, 7, 6, 5⟩)
      ∧ decode 0xAD9CC5C5 = some (.vamooXor ⟨.none, 6, true, true, 7, 6, 5⟩)
      ∧ decode 0xCD9CC5C5 = some (.vamooSwap ⟨.none, 6, true, true, 7, 6, 5⟩)
      ∧ decode 0xED9CC5C5 = some (.vamooCas ⟨.none, 6, true, true, 7, 6, 5⟩) := by decide +kernel

/-- R64, R65, R63, R68: the VXQ, VCOLL and VSR majors, and the prefix classes. -/
theorem test_queues_words :
    decode 0x009CC0C9 = some (.tmov ⟨.none, 0, true, 7, 6, 0⟩) ∧ decode 0x118000C9 = some (.tokp ⟨.none, 1, true, 0, 0, 0⟩)
      ∧ decode 0x928000C9 = some (.tokw ⟨.none, 9, true, 0, 0, 0⟩) ∧ decode 0x438000C9 = some (.vfence ⟨.none, 4, true, 0, 0, 0⟩)
      ∧ decode 0x448000C9 = some (.vfenceD ⟨.none, 4, true, 0, 0, 0⟩) ∧ decode 0xB29CC5CD = some (.vcoll ⟨.none, 5, 2, 2, true, 7, 6, 5⟩)
      ∧ decode 0x1280C3D1 = some (.vsend ⟨.none, 9, false, true, 0, 6, 3⟩) ∧ decode 0x328065D1 = some (.vrecv ⟨.none, 9, false, true, 0, 3, 5⟩)
      ∧ decode 0x51CC59984020303 = some (.vfaddVv ⟨(.mod 0x840 0x203), 2, true, false, 7, 6, 5⟩)
      ∧ decode 0x51CC58100253507 = some (.vaddVv ⟨(.hireg 2 false true false true 0x35), 2, true, false, 7, 6, 5⟩)
      ∧ decode 0x51483998402000B = some (.vfaddVv ⟨(.tokmod 0x840 2 0), 2, true, false, 5, 4, 3⟩)
      ∧ decode 0x61CC1A960000013 = some (.mopa ⟨(.tile 0x6000 0), 0, false, 7, 6, 1⟩)
      ∧ decode 0x1700C5B100000917 = some (.vld ⟨(.scale 9), 11, true, false, 0, 6, 5⟩) := by decide +kernel

/-! ### The hypotheses of the statements are met: general registers -/

def regsA : Thread := vals user [(2, 0x40000000), (5, 0x40000000), (6, 0), (7, 0x8000000000000000), (8, 0xFFFFFFFFFFFFFFFF), (9, 9), (10, 64)]
/-- The same in supervisor mode with addresses of the identity map. -/
def regsS : Thread := vals sup [(2, 0x5000), (5, 0x5000), (6, 0), (7, 0x5001), (8, 0x123456789), (9, 9), (10, 64)]

theorem witness_IntegerRegisterResults :
    (Issues (sys regsA) regsA [7, 8] [0] ∧ Issues (sys regsA) regsA [9] [31] ∧ regsA.src 6 = 0 ∧ regsA.src 7 ≠ 0)
    ∧ Issues (sys regsA) regsA [7, 6] [9] ∧ Issues (sys regsA) regsA [7, 8] [9]
      ∧ regsA.src 7 = 0x8000000000000000 ∧ regsA.src 8 = 0xFFFFFFFFFFFFFFFF :=
  ⟨⟨idle _ rfl rfl rfl rfl _ _, idle _ rfl rfl rfl rfl _ _, by decide +kernel, by decide +kernel⟩,
    idle _ rfl rfl rfl rfl _ _, idle _ rfl rfl rfl rfl _ _, by decide +kernel, by decide +kernel⟩

theorem witness_ImmediateResults :
    Issues (sys regsA) regsA [9] [0] ∧ Issues (sys regsA) regsA [] [9] ∧ regsA.nest = none ∧ Issues (sys regsA) regsA [9] [9]
      ∧ Issues (sys regsA) regsA [9, 8] [9] ∧ Issues (sys regsA) regsA [8] [9] :=
  ⟨idle _ rfl rfl rfl rfl _ _, idle _ rfl rfl rfl rfl _ _, rfl, idle _ rfl rfl rfl rfl _ _, idle _ rfl rfl rfl rfl _ _,
    idle _ rfl rfl rfl rfl _ _⟩

theorem witness_HintsOnlyAdvance :
    Issues (sys regsA) regsA [] [] ∧ 0xFFFFFF7D < 2 ^ 32 ∧ 0xFFFFFF7D % 256 = 0x7D ∧ 0xF804 < 2 ^ 16 ∧ 0xF804 % 2 ^ 11 = 4
      ∧ decode 0x7D = some (.hint 0) ∧ decode 4 = some (.cHint 0) :=
  ⟨idle _ rfl rfl rfl rfl _ _, by decide, by decide, by decide, by decide, by decide +kernel, by decide +kernel⟩

theorem witness_ScalarFloatResults :
    Issues (sys regsA) regsA [7, 8] [0] ∧ Issues (sys regsA) regsA [9] [31] ∧ Issues (sys regsA) regsA [7, 8, 9] [0] :=
  ⟨idle _ rfl rfl rfl rfl _ _, idle _ rfl rfl rfl rfl _ _, idle _ rfl rfl rfl rfl _ _⟩

theorem witness_RegisterResultFrame : (∃ u, exec (.add 8 9 5) (sys regsA) = .next u) ∧ ∃ u, exec (.vcfgVl 5) (sys regsA) = .next u :=
  ⟨⟨_, by rw [exec_add]; exact compute_runs (idle regsA rfl rfl rfl rfl [9, 8] [5]) _⟩, ⟨_, by rw [exec_vcfgVl]; exact compute_runs (idle regsA rfl rfl rfl rfl [] [5]) _⟩⟩

/-- g5 is bound to q0, which holds 7 and 8, g6 to q7, which is empty, and g7 to q3. -/
def boundT : Thread :=
  { regsA with q := (((Vector.replicate 8 {}).setIfInBounds 0 { entries := [7, 8], general := some 5 }).setIfInBounds 7
      { general := some 6 }).setIfInBounds 3 { entries := [1], general := some 7 } }
/-- A VEXT whose result g9 awaits stands in the queue. -/
def pendT : Thread := { regsA with queue := [{ instr := .vext ⟨.none, 2, false, false, 0, 1, 9⟩, pc := 0 }] }

theorem witness_OperandRegisters :
    (Issues (sys regsA) regsA [9, 8] [0] ∧ regsA.boundQ 0 = none ∧ regsA.nest = none)
    ∧ (Issues (sys boundT) boundT [5, 9] [7] ∧ boundT.boundQ 5 = some 0 ∧ boundT.boundQ 9 = none ∧ boundT.boundQ 7 = some 3
      ∧ (boundT.qAt 0).entries = [7, 8])
    ∧ ((sys boundT).thread? (sys boundT).cur = some boundT ∧ boundT.active? = true ∧ boundT.boundQ 6 = some 7 ∧ (boundT.qAt 7).entries = []
      ∧ boundT.amo = none)
    ∧ ((sys pendT).thread? (sys pendT).cur = some pendT ∧ pendT.active? = true ∧ pendT.isPending 9 = true) := by
  refine ⟨⟨idle _ rfl rfl rfl rfl _ _, by decide +kernel, rfl⟩, ⟨⟨rfl, rfl, rfl, ?_, ?_, ?_⟩, ?_, ?_, ?_, ?_⟩,
    ⟨rfl, rfl, ?_, ?_, rfl⟩, ⟨rfl, rfl, ?_⟩⟩ <;> decide +kernel

/-! ### Loads, stores and atomics -/

theorem witness_LoadResults :
    Issues (sys regsA) regsA [5] [0] ∧ aligned (regsA.src 5 + offM none 0x3F8) (2 ^ ((3 : BitVec 3).toNat % 4)) = true
      ∧ locate (sys regsA) (regsA.who (sys regsA)) (regsA.src 5 + offM none 0x3F8) .read false = (.at (.mem (2 ^ 53 + 0x3F8)), sys regsA)
      ∧ aligned (regsA.src 5) 8 = true
      ∧ locate (sys regsA) (regsA.who (sys regsA)) (regsA.src 5) .read false = (.at (.mem (2 ^ 53)), sys regsA)
      ∧ Issues (sys regsA) regsA [2] [9] ∧ aligned (regsA.src 2 + BitVec.ofNat 64 (8 * (31 : Reg).toNat)) 8 = true
      ∧ locate (sys regsA) (regsA.who (sys regsA)) (regsA.src 2 + BitVec.ofNat 64 (8 * (31 : Reg).toNat)) .read false
        = (.at (.mem (2 ^ 53 + 248)), sys regsA) :=
  ⟨idle _ rfl rfl rfl rfl _ _, rfl, rfl, rfl, rfl, idle _ rfl rfl rfl rfl _ _,
    rfl, rfl⟩

def detS : Thread := { regsS with det := true }
/-- Its combining buffer is full, with no word of 0x5000. -/
def fullComb : Thread := { detS with comb := List.replicate 8192 { word := 1, data := 0, mask := 1 } }

theorem witness_StoreResults :
    (regsA.det = false ∧ ({ detS with drainedAt := [0x1000] } : Thread).pc ∈ [(0x1000 : BitVec 64)] ∧ 2 ^ 53 ≤ 2 ^ 53 + 1 ∧ Issues (sys regsA) regsA [5, 9] [] ∧ aligned (regsA.src 5 + offS none 0 1) (2 ^ ((0 : BitVec 3).toNat % 4)) = true
      ∧ locate (sys regsA) (regsA.who (sys regsA)) (regsA.src 5 + offS none 0 1) .write (2 ^ ((0 : BitVec 3).toNat % 4) < 8)
        = (.at (.mem (2 ^ 53 + 1)), sys regsA)
      ∧ aligned (regsA.src 5) 8 = true
      ∧ locate (sys regsA) (regsA.who (sys regsA)) (regsA.src 5) .write (2 ^ ((3 : BitVec 3).toNat % 4) < 8)
        = (.at (.mem (2 ^ 53)), sys regsA)
      ∧ Issues (sys regsA) regsA [2, 9] [] ∧ aligned (regsA.src 2 + BitVec.ofNat 64 (8 * (31 : Reg).toNat)) 8 = true
      ∧ locate (sys regsA) (regsA.who (sys regsA)) (regsA.src 2 + BitVec.ofNat 64 (8 * (31 : Reg).toNat)) .write false
        = (.at (.mem (2 ^ 53 + 248)), sys regsA))
    ∧ (detS.det = true ∧ 0x5000 < 2 ^ 53 ∧ detS.comb.length < 8192 ∧ Issues (sys detS) detS [5, 9] []
      ∧ aligned (detS.src 5 + offS none 0 0) (2 ^ ((3 : BitVec 3).toNat % 4)) = true ∧ 0x5000 % 8 = 0
      ∧ locate (sys detS) (detS.who (sys detS)) (detS.src 5 + offS none 0 0) .write false = (.at (.mem 0x5000), sys detS))
    ∧ (8192 ≤ fullComb.comb.length ∧ (∀ c ∈ fullComb.comb, c.word ≠ 0x5000 / 8) ∧ canStop (sys fullComb) fullComb = true
      ∧ Issues (sys fullComb) fullComb [5, 9] []) :=
  ⟨⟨rfl, List.mem_singleton.2 rfl, by decide, idle _ rfl rfl rfl rfl _ _, rfl, rfl, rfl, rfl,
    idle _ rfl rfl rfl rfl _ _, rfl, rfl⟩,
   ⟨rfl, by decide, by decide, idle _ rfl rfl rfl rfl _ _, rfl, by decide, rfl⟩,
   by simp [fullComb], fun c h => by rw [List.eq_of_mem_replicate h]; decide, rfl, idle _ rfl rfl rfl rfl _ _⟩

def amoT : Thread := { regsS with run := .blocked (.amoAdd 3 9 5 6), amo := some ⟨6, 1, 0⟩ }

theorem witness_AtomicUpdates :
    (regsS.amo = none ∧ aligned (regsS.src 5) 8 = true ∧ Issues (sys regsS) regsS [5, 9] [6] ∧ Issues (sys regsS) regsS [5, 9, 6] [6]
      ∧ locate (sys regsS) (regsS.who (sys regsS)) (regsS.src 5) .atomic false = (.at (.mem 0x5000), sys regsS))
    ∧ (Issues (sys regsS) regsS [5, 9] [] ∧ aligned (regsS.src 5) 32 = true
      ∧ ∃ ls s1, locateAll (regsS.who (sys regsS)) .atomic (cellPieces (regsS.src 5)) (sys regsS) = .ok ls s1)
    ∧ ((sys amoT).thread? amoT.slot = some amoT ∧ amoT.run = .blocked (.amoAdd 3 9 5 6) ∧ amoT.amo = some ⟨6, 1, 0⟩
      ∧ (sys amoT).cur = amoT.slot) :=
  ⟨⟨rfl, rfl, idle _ rfl rfl rfl rfl _ _, idle _ rfl rfl rfl rfl _ _, rfl⟩,
   ⟨idle _ rfl rfl rfl rfl _ _, rfl, ⟨_, _, rfl⟩⟩, ⟨rfl, rfl, rfl, rfl⟩⟩

theorem witness_MisalignedAccessTraps :
    canStop (sys regsS) regsS = true ∧ regsS.amo = none ∧ Issues (sys regsS) regsS [7] [0] ∧ Issues (sys regsS) regsS [7, 9] []
      ∧ Issues (sys regsS) regsS [7, 9] [6]
      ∧ (∀ n ∈ [2, 4, 8, 16, 32], aligned (regsS.src 7) n = false) ∧ aligned (regsS.src 7 + offM none 0) 2 = false
      ∧ aligned (regsS.src 7 + offS none 0 0) 2 = false ∧ aligned (regsS.src 7) (amoBytes 2) = false :=
  ⟨rfl, rfl, idle _ rfl rfl rfl rfl _ _, idle _ rfl rfl rfl rfl _ _, idle _ rfl rfl rfl rfl _ _, by decide +kernel, by decide +kernel,
    by decide +kernel, by decide +kernel⟩

/-! ### Branches, jumps and loop nests -/

theorem witness_BranchAndJumpTargets :
    (Issues (sys regsA) regsA [2, 5] [] ∧ regsA.src 2 = regsA.src 5 ∧ Issues (sys regsA) regsA [7, 8] []
      ∧ (regsA.src 7).toInt < (regsA.src 8).toInt ∧ (regsA.src 7).toNat < (regsA.src 8).toNat
      ∧ Issues (sys regsA) regsA [6] [] ∧ regsA.src 6 = 0 ∧ regsA.src 7 ≠ 0)
    ∧ Issues (sys regsA) regsA [] [1] ∧ Issues (sys regsA) regsA [9] [9] ∧ Issues (sys regsA) regsA [9] [0] ∧ Issues (sys regsA) regsA [9] [1] :=
  ⟨⟨idle _ rfl rfl rfl rfl _ _, by decide +kernel, idle _ rfl rfl rfl rfl _ _, by decide +kernel, by decide +kernel,
    idle _ rfl rfl rfl rfl _ _, by decide +kernel, by decide +kernel⟩,
    idle _ rfl rfl rfl rfl _ _, idle _ rfl rfl rfl rfl _ _, idle _ rfl rfl rfl rfl _ _, idle _ rfl rfl rfl rfl _ _⟩

/-- The no-op parcel 0x0004 stands behind the LOOPN at 0x1000. -/
def loopS : State := { sys regsS with mem := [(0x1004, 4)] }
def nestOf (tuple : List (BitVec 32)) (pos : Nat) : Nest :=
  { counts := [2, 3], tuple := tuple, start := 0x1004, after := 0x1008, body := [.cHint 0, .cHint 0], pos := pos, d := 0, a := 5 }

theorem witness_LoopNests :
    (Issues loopS regsS [9, 10] [] ∧ fillLoop (regsS.who loopS) 1 (regsS.pc + 4) loopS = .ok ([.cHint 0], 0x1006) loopS
      ∧ (0 : BitVec 32) ∉ [(regsS.src 9).setWidth 32, (regsS.src 10).setWidth 32] ∧ Issues loopS regsS [6] []
      ∧ (0 : BitVec 32) ∈ [(regsS.src 6).setWidth 32])
    ∧ (let c : List (BitVec 32) := [2, 3]
       (∀ j, j < c.length → ([1, 2] : List (BitVec 32)).getD j 0 < c.getD j 0)
       ∧ ([2, 3].zip [1, 2]).foldl (fun n (p : Nat × Nat) => n * p.1 + p.2) 0 + 1 = 6
       ∧ (∀ j, j < c.length → ([0, 2] : List (BitVec 32)).getD j 0 < c.getD j 0))
    ∧ ({ regsS with nest := some (nestOf [0, 2] 0) } : Thread).nest = some (nestOf [0, 2] 0)
    ∧ (nestOf [0, 2] 0).pos + 1 < (nestOf [0, 2] 0).body.length ∧ (nestOf [0, 2] 1).body.length ≤ (nestOf [0, 2] 1).pos + 1
    ∧ nextTuple (nestOf [0, 2] 1).counts (nestOf [0, 2] 1).tuple = some [1, 0] ∧ nextTuple [2, 3] [1, 2] = none
    ∧ ((nestOf [0, 2] 1).pos ≠ 0 ∧ (nestOf [0, 2] 0).d = 0)
    ∧ (let n : Nest := { nestOf [0, 2] 0 with d := 30 }
       n.pos = 0 ∧ n.d.toNat + n.tuple.length ≤ 32 ∧ n.d ≠ 0 ∧ n.d.toNat ≤ (31 : Reg).toNat ∧ (31 : Reg).toNat < n.d.toNat + n.tuple.length
       ∧ (∀ r, ({ regsS with nest := some n } : Thread).isPending r = false)
       ∧ ({ pendT with nest := some { n with d := 8 } } : Thread).isPending 9 = true) := by
  refine ⟨⟨ready _ _ rfl rfl rfl rfl _ _, rfl, ?_, ready _ _ rfl rfl rfl rfl _ _, ?_⟩, ⟨?_, ?_, ?_⟩, rfl, ?_, ?_, ?_, ?_, ?_, ?_⟩
  on_goal 11 => exact ⟨rfl, by decide, by decide, by decide, by decide, by decide, by decide⟩
  all_goals decide +kernel

/-! ### Status registers and the vector configuration -/

theorem witness_StatusReads :
    Issues (sys regsS) regsS [] [9] ∧ regsS.sup = true ∧ regsS.queue = [] ∧ Issues (sys regsA) regsA [] [9] :=
  ⟨idle _ rfl rfl rfl rfl _ _, rfl, rfl, idle _ rfl rfl rfl rfl _ _⟩

def statS : Thread := vals sup [(5, 5), (6, 0xB3), (7, 1), (8, 0x10), (9, 0xA00000FFFFFFFFFF), (10, 0x270F03E80000), (11, 0x12), (12, 6), (13, 0x1F)]

theorem witness_StatusWrites :
    Issues (sys statS) statS [5] [] ∧ (statS.src 5).toNat % 8 < 6 ∧ statS.queue = [] ∧ statS.owed = [] ∧ statS.sup = true
      ∧ ((statS.src 6).extractLsb' 0 2).toNat ≤ ((statS.src 6).extractLsb' 4 2).toNat
      ∧ 1 ≤ (statS.src 7).toNat % 32 ∧ (statS.src 8).toNat % 32 ≤ 16 ∧ aspaceOk (statS.src 9) = true ∧ ishapeOk (statS.src 10) = true
      ∧ (vals user [(6, 0)]).pe = ((vals user [(6, 0)]).src 6).getLsbD 7
      ∧ (vals user [(6, 0)]).prioMax = ((vals user [(6, 0)]).src 6).extractLsb' 4 2 :=
  ⟨idle _ rfl rfl rfl rfl _ _, by decide, rfl, rfl, rfl, by decide, by decide, by decide, rfl, rfl, rfl, rfl⟩

def statU : Thread := { statS with sup := false }

theorem witness_PrivilegeRefusals :
    (statU.sup = false ∧ canStop (sys statU) statU = true ∧ Issues (sys statU) statU [] [9] ∧ Issues (sys statU) statU [6] []
      ∧ (statU.src 6).getLsbD 7 ≠ statU.pe ∧ (statU.src 8).extractLsb' 4 2 ≠ statU.prioMax ∧ Issues (sys statU) statU [6, 7] []
      ∧ Issues (sys statU) statU [6] [9] ∧ Issues (sys statU) statU [] [])
    ∧ (Issues (sys statS) statS [12] [] ∧ canStop (sys statS) statS = true ∧ 6 ≤ (statS.src 12).toNat % 8
      ∧ ((statS.src 11).extractLsb' 4 2).toNat < ((statS.src 11).extractLsb' 0 2).toNat
      ∧ (statS.src 0).toNat % 32 = 0 ∧ 16 < (statS.src 11).toNat % 32) :=
  ⟨⟨rfl, rfl, idle _ rfl rfl rfl rfl _ _, idle _ rfl rfl rfl rfl _ _, by decide, by decide, idle _ rfl rfl rfl rfl _ _,
    idle _ rfl rfl rfl rfl _ _, idle _ rfl rfl rfl rfl _ _⟩,
   idle _ rfl rfl rfl rfl _ _, rfl, by decide, by decide, rfl, by decide⟩

theorem witness_VectorConfiguration :
    Issues (sys statU) statU [9, 7] [0] ∧ (vals user [(7, 63)]).src 7 = 63 ∧ (63 : BitVec 64).toNat < 64
      ∧ Issues (sys statU) statU [9] [5] ∧ Issues (sys statU) statU [] [5] ∧ statU.queue = [] :=
  ⟨idle _ rfl rfl rfl rfl _ _, rfl, by decide, idle _ rfl rfl rfl rfl _ _, idle _ rfl rfl rfl rfl _ _, rfl⟩

/-! ### Traps and returning -/

def fullT : Thread := { regsA with queue := List.replicate 64 { instr := .vendrec ⟨.none, 0, false, false, 0, 0, 0⟩, pc := 0 } }

theorem witness_TrapEntersHandler :
    ((sys fullT).thread? fullT.slot = some fullT ∧ fullT.sup = false) ∧ fullT.queue.length ≤ 64 := ⟨⟨rfl, rfl⟩, by decide⟩

/-- NQ is 65 in the frame block of slot 0. -/
def badFrame : State := { sys regsS with mem := [(0x2010030, 65)] }
/-- The turn of slot 0, whose pc is odd. -/
def oddS : State := { sys { regsS with pc := 0x1001 } with agenda := [.issue 0] }

theorem badFrame_refused : frameOk (badFrame.mem.readBytes (badFrame.frameBase regsS) 0x4000) = false := by decide +kernel

theorem witness_DoubleTrapHalts :
    ((sys regsS).thread? regsS.slot = some regsS ∧ regsS.sup = true)
    ∧ (Issues badFrame regsS [] [] ∧ regsS.queue = [] ∧ canStop badFrame regsS = true ∧ frameOk (badFrame.mem.readBytes (badFrame.frameBase regsS) 0x4000) = false)
    ∧ (let t : Thread := { regsS with pc := 0x1001 }
       turnOf oddS = .issue 0 ∧ MayServe oddS t ∧ t.run = .ready ∧ t.nest = none
       ∧ let x := served oddS t
         fetchWord (t.who x) t.pc x = .bad { code := 2, addr := 0x1001, acc := 3 } x ∧ canStop x t = true) :=
  ⟨⟨rfl, rfl⟩, ⟨ready _ _ rfl rfl rfl rfl _ _, rfl, rfl, badFrame_refused⟩, rfl, ⟨rfl, rfl, rfl, by decide +kernel⟩, rfl, rfl, rfl, rfl⟩

def debugS : State := (sys regsS).setPart 0 { bootPart with debugger := true }

/-- A load that has faulted is the oldest entry. -/
def faultT : Thread :=
  { regsS with queue := [{ instr := .vld ⟨.none, 2, false, false, 0, 5, 3⟩, pc := 0x1000, started := true, fault := some { code := 3 } }] }

theorem witness_TrapAndHaltInstructions :
    (Issues (sys regsS) regsS [] [] ∧ canStop (sys regsS) regsS = true ∧ ((sys regsS).partOf regsS).debugger = false
      ∧ Issues debugS regsS [] [] ∧ canStop debugS regsS = true ∧ (debugS.partOf regsS).debugger = true)
    ∧ regsS.queue = [] ∧ AtRest (sys regsS) regsS
    ∧ ∃ e, faultT.queue = e :: [] ∧ e.fault = some { code := 3 } ∧ e.done = false :=
  ⟨⟨idle _ rfl rfl rfl rfl _ _, rfl, rfl, ready _ _ rfl rfl rfl rfl _ _, rfl, rfl⟩, rfl, ⟨rfl, rfl, rfl, rfl⟩, _, rfl, rfl, rfl⟩

/-- The frame of slot 0 holds a nest of one level and one instruction at 0x1004, which is `parcel`. -/
def nestFrame (parcel : List (Nat × Byte)) : State :=
  { sys regsS with mem := parcel ++ [(0x2010001, 0x22), (0x2010040, 2), (0x2010070, 4), (0x2010071, 0x10), (0x201007A, 1)] }
def nestBlock (s : State) : List Byte := s.mem.readBytes (s.frameBase regsS) 0x4000

theorem nestFrame_read :
    ∀ p ∈ [[(0x1004, 4)], []], let f := nestBlock (nestFrame p)
      frameOk f = true ∧ bitAt (word64 f 0) 13 = true ∧ bitAt (word64 f 0) 9 = true ∧ fld (word64 f 120) 8 5 = 0 ∧ word64 f 112 = 0x1004 := by
  decide +kernel

theorem witness_ReturnFromTrap :
    (Issues (sys regsS) regsS [] [] ∧ regsS.sup = true ∧ regsS.queue = [] ∧ frameOk (nestBlock (sys regsS)) = true
      ∧ bitAt (word64 (nestBlock (sys regsS)) 0) 13 = false)
    ∧ (let s := nestFrame [(0x1004, 4)]
       let f := nestBlock s
       Issues s regsS [] [] ∧ frameOk f = true ∧ bitAt (word64 f 0) 13 = true ∧ ∃ body after, fillLoop { regsS.who s with
         sup := bitAt (word64 f 0) 9 } (fld (word64 f 120) 8 5 + 1) (BitVec.ofNat 64 (word64 f 112)) s = .ok (body, after) s)
    ∧ (Issues (sys regsA) regsA [] [] ∧ canStop (sys regsA) regsA = true ∧ regsA.sup = false)
    ∧ (Issues badFrame regsS [] [] ∧ canStop badFrame regsS = true ∧ frameOk (nestBlock badFrame) = false)
    ∧ (let s := nestFrame []
       let f := nestBlock s
       Issues s regsS [] [] ∧ canStop s regsS = true ∧ frameOk f = true ∧ bitAt (word64 f 0) 13 = true ∧ ∃ tr, fillLoop { regsS.who s with
         sup := bitAt (word64 f 0) 9 } (fld (word64 f 120) 8 5 + 1) (BitVec.ofNat 64 (word64 f 112)) s = .bad tr s) := by
  have h1 := nestFrame_read [(0x1004, 4)] (by simp)
  have h2 := nestFrame_read [] (by simp)
  refine ⟨⟨idle _ rfl rfl rfl rfl _ _, rfl, rfl, by decide +kernel, by decide +kernel⟩,
    ⟨ready _ _ rfl rfl rfl rfl _ _, h1.1, h1.2.1, ?_⟩, ⟨idle _ rfl rfl rfl rfl _ _, rfl, rfl⟩,
    ⟨ready _ _ rfl rfl rfl rfl _ _, rfl, badFrame_refused⟩, ⟨ready _ _ rfl rfl rfl rfl _ _, rfl, h2.1, h2.2.1, ?_⟩⟩
  · rw [h1.2.2.1, h1.2.2.2.1, h1.2.2.2.2]
    exact ⟨_, _, rfl⟩
  · rw [h2.2.2.1, h2.2.2.2.1, h2.2.2.2.2]
    exact ⟨_, rfl⟩

theorem witness_OrderingCompletes :
    Issues (sys regsS) regsS [] [] ∧ regsS.queue = [] ∧ regsS.owed = [] ∧ regsS.det = false ∧ Issues (sys regsS) regsS [7, 9] []
      ∧ regsS.sup = true ∧ (regsS.src 9).toNat < 2 ^ 16 ∧ (∀ f, translationsDone (sys regsS) f = true)
      ∧ Issues (sys regsS) regsS [9] [] ∧ fld (regsS.src 9).toNat 16 47 = 0 :=
  ⟨idle _ rfl rfl rfl rfl _ _, rfl, rfl, rfl, idle _ rfl rfl rfl rfl _ _, rfl, by decide, fun _ => rfl, idle _ rfl rfl rfl rfl _ _, by decide⟩

/-- A root table at 0x100000 whose first entry is a leaf for every user address; the thread's ASID is 9. -/
def rootS : State := { sys { regsS with aspace := 0xA000900000000100 } with mem := [(0x100000, 0xDF)] }
/-- A leaf without D, cached for the page of 0x5000. -/
def cachedS : State := { rootS with tlb := [⟨9, 0, 5, 0x2053, false⟩] }
/-- A copy of the word at 0x1000 in the buffer of facet 0. -/
def copiedS : State := { sys regsS with code := [⟨0, none, 0x1000, 0x1000, 4⟩] }

theorem witness_CachesAndCopies :
    ((sys regsS).thread? 0 = some regsS ∧ (sys regsS).code = [] ∧ (0x1000 : BitVec 64).toNat % 4 = 0 ∧ regsS.pc.toNat < 0x1000 + 4
      ∧ locate (sys regsS) (regsS.who (sys regsS)) 0x1000 .fetch false = (.at (.mem 0x1000), sys regsS))
    ∧ (∀ c ∈ cachedS.tlb, c.serves 8 = true → c.covers 0x5000 = false) ∧ (0x5008 : BitVec 64).toNat / 4096 = (0x5FF0 : BitVec 64).toNat / 4096
    ∧ (0x8000000000000000 : BitVec 64).getLsbD 63 = true ∧ (∀ c ∈ cachedS.tlb, isLeaf c.pte = true ∧ bitAt c.pte 7 = false)
    ∧ Acc1.writes .write = true ∧ ((0x1002 : BitVec 64) - 0x1000).toNat < (4 : BitVec 64).toNat := by
  refine ⟨⟨rfl, rfl, rfl, by decide, rfl⟩, ?_, ?_, ?_, ?_, rfl, ?_⟩ <;> decide

/-- R362, R366, R369: a leaf that has been accessed is cached, TLBINV of its address and ASID removes it, and that of another ASID does not. -/
theorem test_cached_leaf :
    (cacheEntry rootS 0xA000900000000100 0x5000 4).tlb = [⟨9, 4, 0, 0xDF, false⟩]
      ∧ (dropPage (cacheEntry rootS 0xA000900000000100 0x5000 4) 0x7000 9).tlb = []
      ∧ (dropPage cachedS 0x5000 8).tlb = cachedS.tlb ∧ (dropPage cachedS 0x6000 9).tlb = cachedS.tlb := by decide +kernel
/-- R386: IFLUSH of a range removes the copies that hold a byte of it. -/
theorem test_flush_range :
    (flushCode copiedS 0 0x1003 1).code = [] ∧ (flushCode copiedS 0 0x1004 8).code = copiedS.code
      ∧ (flushCode copiedS 4 0x1000 8).code = copiedS.code := by
  decide +kernel

/-! ### Launching, groups, work queues, claiming and waiting -/

/-- The memory holds a launch record at 0x5000. -/
def recS (m : Memory) (p : Partition) : State :=
  { State.reset with threads := [regsS], mem := m, parts := State.reset.parts.setIfInBounds 0 p }
def someLaunch : Launch :=
  { id := 1, order := 0, entry := 0, args := 0, count := 2, group := 0, prio := 0, preempt := false, det := false, pe := false, aspace := 0, next := 1 }

/-- COUNT 1, and beside it partition 16, no thread, priority 1, group 5, and nothing. -/
def recs : List Memory := [[(0x5010, 1), (0x5014, 16)], [], [(0x5010, 1), (0x5015, 1)], [(0x5010, 1), (0x5018, 5)], [(0x5010, 1)]]

def fullQueue : Partition := { bootPart with launches := List.replicate 4096 someLaunch }
def fullGroups : Partition := { bootPart with groups := List.replicate 1024 { id := 1 } }

theorem witness_SpawnAndExit_spawn :
    (∀ m p, Issues (recS m p) regsS [5] [9]) ∧ aligned (regsS.src 5) 32 = true ∧ regsS.queue = [] ∧ regsS.det = false
    ∧ (∃ bs, readBlockC regsS 1 (regsS.src 5) (recS [(0x5010, 1), (0x5014, 16)] bootPart) = .ok bs (recS [(0x5010, 1), (0x5014, 16)] bootPart))
    ∧ (∃ bs, readBlockC regsS 1 (regsS.src 5) (recS [(0x5010, 1)] fullQueue) = .ok bs (recS [(0x5010, 1)] fullQueue))
    ∧ (∃ bs, readBlockC regsS 1 (regsS.src 5) (recS [] bootPart) = .ok bs (recS [] bootPart))
    ∧ (∃ bs, readBlockC regsS 1 (regsS.src 5) (recS [(0x5010, 1), (0x5015, 1)] bootPart) = .ok bs (recS [(0x5010, 1), (0x5015, 1)] bootPart))
    ∧ (∃ bs, readBlockC regsS 1 (regsS.src 5) (recS [(0x5010, 1), (0x5018, 5)] fullGroups) = .ok bs (recS [(0x5010, 1), (0x5018, 5)] fullGroups))
    ∧ (∃ bs, readBlockC regsS 1 (regsS.src 5) (recS [(0x5010, 1)] bootPart) = .ok bs (recS [(0x5010, 1)] bootPart))
    ∧ (recs.map fun m => let r := parseLaunch (m.readBytes 0x5000 32); (r.part, r.count, r.flags, r.group.toNat, r.entry.toNat, r.clean))
      = [(16, 1, 0, 0, 0, true), (0, 0, 0, 0, 0, true), (0, 1, 1, 0, 0, true), (0, 1, 0, 5, 0, true), (0, 1, 0, 0, 0, true)]
    ∧ 4096 ≤ fullQueue.launches.length ∧ 1024 ≤ fullGroups.groups.length ∧ bootPart.launches.length < 4096 ∧ bootPart.valid = true
    ∧ regsS.prioMax.toNat < 1 := by
  refine ⟨fun _ _ => ready _ _ rfl rfl rfl rfl _ _, rfl, rfl, rfl, ⟨_, rfl⟩, ⟨_, rfl⟩, ⟨_, rfl⟩, ⟨_, rfl⟩, ⟨_, rfl⟩, ⟨_, rfl⟩,
    by decide +kernel, ?_, ?_, by decide, rfl, by decide⟩
  · simp [fullQueue]
  · simp [fullGroups]

def groupP (g : List Group) (p : Partition) : Partition := { p with groups := g }
def mine (id : BitVec 32) : Group := { id := id, members := { plus := [(1, 0)] } }
def inGroup : State := (sys regsA).setPart 0 (groupP [mine 9] bootPart)
def inEight : State := (sys regsA).setPart 0 (groupP ((List.range 8).map fun k => mine (BitVec.ofNat 32 (k + 100))) bootPart)

theorem witness_SpawnAndExit_exit :
    (Issues (sys regsA) regsA [] [] ∧ regsA.queue = [] ∧ regsA.owed = [] ∧ regsA.det = false ∧ regsA.part < 16
      ∧ ({ detS with drainedAt := [0x1000] } : Thread).pc ∈ [(0x1000 : BitVec 64)]
      ∧ (∀ u ∈ (sys regsA).threads, u.slot ≠ regsA.slot → u.facet = regsA.facet → 1 ∉ u.tiles)
      ∧ (∃ l, (sys regsA).launchOf regsA = some l ∧ l.exited + 1 = l.count)
      ∧ ∃ l, ((sys regsA).setPart 0 { bootPart with launches := [someLaunch] }).launchOf regsA = some l ∧ l.exited + 1 ≠ l.count)
    ∧ Issues inGroup regsA [] [] ∧ (inGroup.partOf regsA).groupsOf regsA.launch regsA.rank = [mine 9]
      ∧ (inGroup.partOf regsA).group? 9 = some (mine 9) ∧ (mine 9).episode = none ∧ (mine 9).early = [] := by
  refine ⟨⟨idle _ rfl rfl rfl rfl _ _, rfl, rfl, rfl, by decide, List.mem_singleton.2 rfl, fun u hu hs => ?_, ⟨_, rfl, rfl⟩, ⟨_, rfl, by decide⟩⟩,
    ready _ _ rfl rfl rfl rfl _ _, rfl, rfl, rfl, rfl⟩
  simp only [sys, List.mem_singleton] at hu
  exact absurd (hu ▸ rfl) hs

def fullTable : State := (sys regsA).setPart 0 (groupP (List.replicate 1024 { id := 1 }) bootPart)

theorem witness_GroupMembership :
    regsA.part < 16
    ∧ (Issues (sys regsA) regsA [6] [9] ∧ regsA.src 6 = 0 ∧ 2 ^ 32 ≤ (regsA.src 7).toNat)
    ∧ (Issues inGroup regsA [9] [5] ∧ (regsA.src 9).toNat < 2 ^ 32 ∧ ((inGroup.partOf regsA).group? 9).any (fun g => g.members.has 1 0) = true)
    ∧ (Issues inEight regsA [9] [5] ∧ ((inEight.partOf regsA).groupsOf 1 0).length = 8 ∧ (inEight.partOf regsA).group? 9 = none)
    ∧ (Issues fullTable regsA [9] [5] ∧ (fullTable.partOf regsA).groups.length = 1024 ∧ (fullTable.partOf regsA).group? 9 = none
      ∧ (fullTable.partOf regsA).groupsOf 1 0 = [])
    ∧ Issues (sys regsA) regsA [9] [5] ∧ ((sys regsA).partOf regsA).group? 9 = none ∧ ((sys regsA).partOf regsA).groups.length < 1024 := by
  refine ⟨by decide, ⟨idle _ rfl rfl rfl rfl _ _, rfl, by decide⟩, ⟨ready _ _ rfl rfl rfl rfl _ _, by decide, rfl⟩,
    ⟨ready _ _ rfl rfl rfl rfl _ _, rfl, rfl⟩, ⟨ready _ _ rfl rfl rfl rfl _ _, ?_, ?_, ?_⟩, idle _ rfl rfl rfl rfl _ _, rfl, by decide⟩
  · exact List.length_replicate
  all_goals decide +kernel

def queueT : Thread := vals user [(5, 0x8000000000000000), (6, 7), (7, 0), (8, 1)]
def queueS (l : List (BitVec 63)) (m : List (BitVec 63)) : State := { sys queueT with facets := [(0, { items := l }), (1, { items := m, cursor := 1 })] }

theorem witness_WorkQueuesAndClaim_queues :
    (∀ l m, Issues (queueS l m) queueT [5] [9] ∧ Issues (queueS l m) queueT [] [9]) ∧ queueT.det = false
    ∧ (queueT.src 5).getLsbD 63 = true ∧ (queueT.src 6).getLsbD 63 = false
    ∧ ((queueS (List.replicate 256 0) []).facet queueT.facet).items.length = 256
    ∧ ((queueS (List.replicate 255 0) []).facet queueT.facet).items.length < 256
    ∧ ((queueS [] []).facet queueT.facet).items = [] ∧ ((queueS [1, 2] []).facet queueT.facet).items = [1] ++ [2]
    ∧ (queueT.src 7).getLsbD 63 = false ∧ (queueT.src 7).toNat = queueT.facet
    ∧ (queueT.src 8).getLsbD 63 = false ∧ (queueT.src 8).toNat ≠ queueT.facet
    ∧ ((queueS [] [3]).partOf queueT).hasFacet 1 = true ∧ ((queueS [] []).partOf queueT).hasFacet 4096 = false
    ∧ ((queueS [] []).facet 1).items = [] ∧ ((queueS [] [3]).facet 1).items = 3 :: []
    ∧ (((queueS [] []).facet queueT.facet).cursor < Config.facets ∧ (∀ g, ¬ ((queueS [] []).facet g).items ≠ [])
      ∧ (∀ g, g ≠ 1 → ((queueS [] [3]).facet g).items = []))
    ∧ stealVictim (queueS [] [3]) bootPart 0 0 = some 1 ∧ stealVictim (queueS [4] []) bootPart 0 0 = none := by
  refine ⟨fun l m => ⟨ready _ _ rfl rfl rfl rfl _ _, ready _ _ rfl rfl rfl rfl _ _⟩, rfl, by decide, by decide, ?_, ?_, rfl, rfl,
    by decide, rfl, by decide, by decide, ?_, ?_, rfl, rfl, ⟨by decide, fun g => ?_, fun g hg => ?_⟩, ?_, ?_⟩
  · exact List.length_replicate
  · show (List.replicate 255 (0 : BitVec 63)).length < 256
    simp
  · decide +kernel
  · decide +kernel
  · rcases g with _ | _ | g <;> simp [queueS, State.facet]
  · rcases g with _ | _ | g <;> simp_all [queueS, State.facet]
  all_goals decide +kernel

theorem witness_WorkQueuesAndClaim_claim :
    Issues (sys regsS) regsS [5, 6] [9] ∧ aligned (regsS.src 5) 16 = true
      ∧ locate (sys regsS) (regsS.who (sys regsS)) (regsS.src 5) .atomic false = (.at (.mem 0x5000), sys regsS) :=
  ⟨idle _ rfl rfl rfl rfl _ _, rfl, rfl⟩

def yieldT : Thread := vals user [(5, 0), (6, 1), (7, 2), (8, 0x40000000)]
def yieldS : Thread := { yieldT with sup := true }
def yieldD : Thread := { yieldT with draining := true }
/-- A CHRUN that has not begun. -/
def runsT : Thread := { yieldT with queue := [{ instr := .chrun ⟨.none, 7, false, false, 0, 5, 3⟩, pc := 0 }] }
/-- A partition with one free image at 0x4000000, and the free list that holds it. -/
def imagePart : Partition := { bootPart with freeList := 0x3000000, imageCap := 4, images := [0x4000000] }
def imageMem : Memory := [(0x3000000, 1), (0x300000B, 4)]
def waitsOf (t : Thread) : State := { sys t with mem := imageMem }.setPart 0 { imagePart with launches := [someLaunch] }
/-- Two threads of facet 0 that can issue. -/
def pairS : State := { sys yieldT with threads := [yieldT, { user with slot := 1 }] }
def chT : Thread := { yieldT with chOut := 1 }

theorem witness_WaitsEnd :
    (Issues (sys yieldT) yieldT [5] [9] ∧ yieldT.src 5 = 0 ∧ yieldT.yieldFor = none
      ∧ (∀ u ∈ (sys yieldT).threads, u.slot ≠ yieldT.slot → u.facet = yieldT.facet → u.issues = false)
      ∧ (Issues pairS yieldT [5] [9] ∧ canIssue pairS yieldT ≠ [] ∧ (1 ∈ canIssue pairS yieldT ∧ 2 ∉ canIssue pairS yieldT))
      ∧ yieldT.src 6 = 1 ∧ someoneWaits (sys yieldT) yieldT = false
      ∧ (∀ t ∈ [yieldT, yieldS, yieldD], Issues (waitsOf t) t [6] [9] ∧ someoneWaits (waitsOf t) t = true
        ∧ popImage (waitsOf t) ((waitsOf t).partOf t) ≠ none)
      ∧ yieldT.sup = false ∧ yieldT.draining = false ∧ yieldS.sup = true ∧ yieldD.draining = true
      ∧ yieldT.src 7 ≠ 0 ∧ yieldT.src 7 ≠ 1 ∧ canStop (sys yieldT) yieldT = true)
    ∧ (Issues (sys yieldT) yieldT [8, 5] [9] ∧ Issues (sys yieldT) yieldT [8] [9] ∧ Issues (sys yieldT) yieldT [] [9]
      ∧ Issues (sys yieldT) yieldT [] [] ∧ aligned (yieldT.src 8) 8 = true
      ∧ locate (sys yieldT) (yieldT.who (sys yieldT)) (yieldT.src 8) .read false = (.at (.mem (2 ^ 53)), sys yieldT)
      ∧ BitVec.ofNat 64 (loadT (sys yieldT) yieldT (.mem (2 ^ 53)) 8) = yieldT.src 5
      ∧ BitVec.ofNat 64 (loadT (sys yieldT) yieldT (.mem (2 ^ 53)) 8) ≠ yieldT.src 6
      ∧ loadT { sys yieldT with mem := [(2 ^ 53, 1)] } yieldT (.mem (2 ^ 53)) 8 % 256 ≠ 0
      ∧ (yieldT.src 5).toNat ≤ (sys yieldT).time.toNat ∧ (sys yieldT).time.toNat < (yieldT.src 6).toNat
      ∧ yieldT.queue = [] ∧ yieldT.chOut = 0 ∧ Issues (sys chT) chT [] [9] ∧ chT.chOut ≠ 0
      ∧ Issues (sys runsT) runsT [] [9] ∧ (∃ e ∈ runsT.queue, owesRuns runsT e = true)
      ∧ stbarReady (sys yieldT) yieldT 15 = true ∧ stbarReady (sys pendT) pendT 2 = false) := by
  refine ⟨⟨idle _ rfl rfl rfl rfl _ _, rfl, rfl, ?_,
    ⟨ready _ _ rfl rfl rfl rfl _ _, by decide +kernel, by decide +kernel⟩, rfl, rfl, ?_, rfl, rfl, rfl, rfl, by decide, by decide, rfl⟩,
    idle _ rfl rfl rfl rfl _ _, idle _ rfl rfl rfl rfl _ _, idle _ rfl rfl rfl rfl _ _, idle _ rfl rfl rfl rfl _ _, rfl, rfl, rfl,
    by decide +kernel, by decide +kernel, by decide, by decide, rfl, rfl, idle _ rfl rfl rfl rfl _ _, by decide,
    ⟨rfl, rfl, rfl, by decide +kernel, by decide +kernel, by decide +kernel⟩, ⟨_, List.mem_singleton.2 rfl, rfl⟩, rfl, rfl⟩
  · intro u hu hs
    simp only [sys, List.mem_singleton] at hu
    exact absurd (hu ▸ rfl) hs
  · intro t ht
    simp only [List.mem_cons, List.not_mem_nil, or_false] at ht
    rcases ht with rfl | rfl | rfl <;> exact ⟨ready _ _ rfl rfl rfl rfl _ _, rfl, by decide +kernel⟩

/-- Every participant of the open episode has arrived; of the second group's one has not. -/
def allIn (sw : Bool) : Group := { mine 9 with episode := some { parts := { plus := [(1, 0)] }, arrived := [(1, 0)], switch := sw } }
def oneOut : Group := { mine 9 with episode := some { parts := { plus := [(1, 0), (1, 1)] }, arrived := [(1, 0)] } }
def versP (v : BitVec 16) : State := (sys regsA).setPart 0 { bootPart with bound := true, ver := v }

theorem witness_BarrierAndSwitch_episodes :
    (let s := (sys regsA).setPart 0 (groupP [allIn false] bootPart)
     (s.parts.toList.getD 0 {}).group? 9 = some (allIn false) ∧ (allIn false).members.none? = false
     ∧ ∃ ep, (allIn false).episode = some ep ∧ ep.arrived.length + ep.left.length = ep.parts.count ∧ (∀ x ∈ ep.arrived, stands s 0 x = true)
       ∧ ep.switch = false)
    ∧ (let s := (sys regsA).setPart 0 (groupP [oneOut] bootPart)
       (s.parts.toList.getD 0 {}).group? 9 = some oneOut ∧ ∃ ep, oneOut.episode = some ep ∧ ep.arrived.length + ep.left.length ≠ ep.parts.count)
    ∧ (sys regsA).vtab = none
    ∧ (let w (v : BitVec 16) : State := { versP v with vtab := some 0x8000 }
       (w 0).vtab = some 0x8000 ∧ latest (w 0).mem 0x8000 = 0 ∧ verAfter 1 0 = true ∧ latestOf [1] = some 1 ∧ latestOf [] = none
       ∧ verAfter 0 0 = false ∧ verAfter 0 ((w 0).parts.toList.getD 0 {}).ver = false
       ∧ verAfter 0 ((w 0xFFFF).parts.toList.getD 0 {}).ver = true) :=
  ⟨⟨rfl, by decide, _, rfl, by decide, by decide +kernel, rfl⟩, ⟨rfl, _, rfl, by decide⟩, rfl, rfl, by decide +kernel, by decide, by decide,
    rfl, by decide, by decide +kernel, by decide +kernel⟩

theorem witness_BarrierAndSwitch :
    (regsA.queue = [] ∧ regsA.det = false ∧ regsA.arrived = false)
    ∧ (Issues (sys regsA) regsA [6] [5] ∧ Issues (sys regsA) regsA [6, 9] [5] ∧ regsA.src 6 = 0 ∧ Issues (sys regsA) regsA [9] [5]
      ∧ ((sys regsA).partOf regsA).group? 9 = none)
    ∧ (Issues inGroup regsA [9] [5] ∧ (inGroup.partOf regsA).group? 9 = some (mine 9) ∧ (mine 9).members.has regsA.launch regsA.rank = true
      ∧ regsA.src 9 ≠ 0 ∧ (regsA.src 9).toNat < 2 ^ 32
      ∧ (∃ w s2, takeLeave (arrive inGroup regsA.part (mine 9) regsA.launch regsA.rank false none) regsA 9 = some (w, s2))
      ∧ (∃ w s2, takeLeave (arrive inGroup regsA.part (mine 9) regsA.launch regsA.rank true none) regsA 9 = some (w, s2))
      ∧ Issues inGroup regsA [9, 5] [6] ∧ 65536 ≤ (regsA.src 5).toNat ∧ Issues inGroup regsA [9, 10] [6] ∧ (regsA.src 10).toNat < 65536
      ∧ ∃ w s2, takeLeave (arrive inGroup regsA.part (mine 9) regsA.launch regsA.rank true (some ((regsA.src 10).setWidth 16))) regsA 9
        = some (w, s2)) :=
  ⟨⟨rfl, rfl, rfl⟩, ⟨idle _ rfl rfl rfl rfl _ _, idle _ rfl rfl rfl rfl _ _, rfl, idle _ rfl rfl rfl rfl _ _, rfl⟩,
    ready _ _ rfl rfl rfl rfl _ _, rfl, rfl, by decide, by decide, ⟨_, _, rfl⟩, ⟨_, _, rfl⟩, ready _ _ rfl rfl rfl rfl _ _, by decide,
    ready _ _ rfl rfl rfl rfl _ _, by decide, ⟨_, _, rfl⟩⟩

/-! ### Tile map and policy versions -/

def slotA : Nat := 2 ^ 40 + 0x10000
def slotB : Nat := 2 ^ 40 + 0x20000
def tileWin : TiledWin :=
  { vbase := 0x100000000, ntile := 2, map := 0x6000, free := 0x7000, cap := 4, slots := [slotA, slotB],
    homes := [(0, 0x10000, 2 ^ 40), (1, 0, 0)] }
def tileT : Thread := vals sup [(5, 0x100000000), (6, 7), (7, 0x5000), (8, 0x100010000)]
def tileP : Partition := { bootPart with windows := [(0, tileWin)], ranges := [(0, 1)] }
/-- Tile 0 of a window is out (`st` 1) or in (`st` 2, in `slotA`), or its entry has STATE `st`; the free list has `free` entries, the first
`slotB`. Tile 1 is absent. -/
def tileS (st free : BitVec 8) : State :=
  { State.reset with
    threads := [tileT]
    parts := State.reset.parts.setIfInBounds 0 tileP
    mem := (0x6002, 1) :: (if st = 2 then [(0x600A, 1), (0x600D, 1)] else []) ++ [(0x6015, 1), (0x601A, st)]
      ++ if free = 0 then [] else [(0x7000, free), (0x700A, 2), (0x700D, 1)] }
def moveP (arriving : Bool) : Partition := { tileP with transit := [⟨0, 0, arriving, 0⟩] }
/-- A descriptor of the window at 0x5000 with NTILE `n` and CAP `cap`, its map at 0x6000, its free list at 0x7000. -/
def tileDesc (n cap : BitVec 8) : Memory :=
  [(0x5004, 1), (0x5008, n), (0x5011, 0x60), (0x5019, 0x70), (0x5020, cap)].filter fun c => c.2 != 0
def descS (p : Partition) (n cap : BitVec 8) (m : Memory) : State :=
  { State.reset with threads := [tileT], parts := State.reset.parts.setIfInBounds 0 p, mem := tileDesc n cap ++ m }
def noWin : Partition := { tileP with windows := [] }
def otherWin : Partition := { tileP with windows := [(1, tileWin)] }

theorem witness_TileInstructions_register :
    (∀ s ∈ [descS noWin 2 0 [], descS otherWin 2 4 [], descS tileP 2 4 [(0x601A, 2)], descS tileP 0 4 [], descS noWin 2 4 []],
      Issues s tileT [7] [9] ∧ ∃ bs, readBlockC tileT 2 (tileT.src 7) s = .ok bs s)
    ∧ tileT.sup = true ∧ aligned (tileT.src 7) 32 = true ∧ tileT.part < 16
    ∧ (let r (p : Partition) (n cap : BitVec 8) (m : Memory) := (registerWindow (descS p n cap m) p ((descS p n cap m).mem.readBytes 0x5000 64)).1
       r noWin 2 0 [] = 1 ∧ r otherWin 2 4 [] = 2 ∧ r tileP 2 4 [(0x601A, 2)] = 3 ∧ r tileP 0 4 [] = 0 ∧ r noWin 2 4 [] = 0) := by
  refine ⟨fun p hp => ?_, rfl, rfl, by decide, by decide +kernel⟩
  simp only [List.mem_cons, List.not_mem_nil, or_false] at hp
  rcases hp with rfl | rfl | rfl | rfl | rfl <;> exact ⟨ready _ _ rfl rfl rfl rfl _ _, _, rfl⟩

theorem witness_TileInstructions :
    (∀ st free, Issues (tileS st free) tileT [5] [9] ∧ Issues (tileS st free) tileT [6] [9])
    ∧ tileP.tileOf (tileT.src 6) = none ∧ tileP.tileOf (tileT.src 5) = some (0, tileWin, 0, 0)
    ∧ tileP.tileOf (tileT.src 8) = some (0, tileWin, 1, 0)
    ∧ (∀ b, (moveP b).transitOf 0 0 = some ⟨0, 0, b, 0⟩) ∧ tileP.transitOf 0 0 = none ∧ tileP.transitOf 0 1 = none
    ∧ (tileWin.entry (tileS 1 0).mem 1).state = 0 ∧ 2 < (tileWin.entry (tileS 3 0).mem 0).state ∧ canStop (tileS 3 0) tileT = true
    ∧ (let e := tileWin.entry (tileS 1 2).mem 0
       e.state = 1 ∧ e.ok (tileS 1 2) tileP tileWin 0 = true
       ∧ (tileS 1 0).mem.readN 0x7000 8 = 0 ∧ (tileS 1 1).mem.readN 0x7000 8 = 1 ∧ (tileS 1 1).mem.readN 0x7008 8 = slotB
       ∧ slotB ∈ tileWin.slots ∧ tileWin.cap.toNat < (tileS 1 5).mem.readN 0x7000 8)
    ∧ (let e := tileWin.entry (tileS 2 4).mem 0
       e.state = 2 ∧ e.ok (tileS 2 4) tileP tileWin 0 = true ∧ tileWin.cap.toNat ≤ (tileS 2 4).mem.readN 0x7000 8
       ∧ (tileS 2 3).mem.readN 0x7000 8 < tileWin.cap.toNat)
    ∧ { tileWin.entry (tileS 2 0).mem 0 with fill := 513 }.ok (tileS 2 0) tileP tileWin 0 = false := by
  refine ⟨fun _ _ => ⟨ready _ _ rfl rfl rfl rfl _ _, ready _ _ rfl rfl rfl rfl _ _⟩, ?_, ?_, ?_, ?_, rfl, rfl, ?_, ?_, rfl, ?_, ?_, ?_⟩ <;>
    decide +kernel

theorem witness_StoreResults_logged :
    Issues (tileS 1 0) tileT [5, 6] [] ∧ tileT.det = false ∧ locate (tileS 1 0) (tileT.who (tileS 1 0)) (tileT.src 5) .write (4 < 8 && !tileT.det)
      = (.at (.logged 0 tileWin 0 0), tileS 1 0) := ⟨ready _ _ rfl rfl rfl rfl _ _, rfl, rfl⟩

/-- TLOG and STTOK of a thread under determinism, whose TLOG has forced a fetch. -/
def tlogT : Thread := { tileT with det := true, arrived := true }
def detA : Thread := { tlogT with arrived := false }

theorem witness_TileLogAndVersionStores_log :
    (Issues (tileS 1 0) tileT [5, 6] [] ∧ tileT.det = false ∧ aligned (tileT.src 5) (MFmt.ofCode 2).bytes = true
      ∧ aligned (tileT.src 5) 32 = true
      ∧ locate (tileS 1 0) (tileT.who (tileS 1 0)) (tileT.src 5) .atomic true = (.at (.logged 0 tileWin 0 0), tileS 1 0))
    ∧ (Issues (tileS 1 0) tileT [7, 6] [] ∧ aligned (tileT.src 7) 32 = true
      ∧ locate (tileS 1 0) (tileT.who (tileS 1 0)) (tileT.src 7) .atomic true = (.at (.mem 0x5000), tileS 1 0)
      ∧ (∀ win w tile off, Loc.mem 0x5000 ≠ .logged win w tile off)
      ∧ ∃ ls s2, locateAll (tileT.who (tileS 1 0)) .atomic (cellPieces (tileT.src 7)) (tileS 1 0) = .ok ls s2)
    ∧ (Issues (sys tlogT) tlogT [7, 6] [] ∧ tlogT.det = true ∧ tlogT.arrived = true ∧ 0x5000 % (MFmt.ofCode 3).bytes = 0
      ∧ tlogT.comb.length < 8192
      ∧ locate (sys tlogT) (tlogT.who (sys tlogT)) (tlogT.src 7) .atomic (!(tlogT.det && true)) = (.at (.mem 0x5000), sys tlogT))
    ∧ (Issues (sys detA) detA [7, 6] [] ∧ detA.det = true ∧ detA.arrived = false)
    ∧ (crossesTile 1 (tileT.src 5) = false ∧ crossesTile 2 0x10000FFE0 = false ∧ crossesTile 1 0x10000FFE0 = true) :=
  ⟨⟨ready _ _ rfl rfl rfl rfl _ _, rfl, rfl, rfl, rfl⟩, ⟨ready _ _ rfl rfl rfl rfl _ _, rfl, rfl, fun _ _ _ _ h => (by cases h), _, _, rfl⟩,
    ⟨idle _ rfl rfl rfl rfl _ _, rfl, rfl, by decide, by decide, rfl⟩, ⟨idle _ rfl rfl rfl rfl _ _, rfl, rfl⟩, by decide, by decide, by decide⟩

def versT : Thread := vals user [(5, 1), (6, 0), (7, 5), (8, 65536), (9, 65535), (11, 2)]
/-- A publication that waits for a slot has taken its version. -/
def takenT : Thread := { versT with pubV := some 1 }
/-- A version table at 0x8000 with region 0: slot 0 staging, slot 1 published as version 0 with the pins `lo` and `hi`. -/
def versS (lo hi : BitVec 8) : State :=
  { State.reset with
    threads := [versT]
    parts := State.reset.parts.setIfInBounds 0 bootPart
    vtab := some 0x8000
    mem := [(0x8008, 1), (0x8010, 1)] ++ (if lo = 0 then [] else [(0x80C2, lo)]) ++ (if hi = 0 then [] else [(0x80C3, hi)]) ++ [(0x80C8, 6)] }

theorem witness_PublishResults :
    (versT.queue = [] ∧ versT.det = false ∧ Issues (sys versT) versT [5] [9] ∧ (sys versT).vtab = none
      ∧ (∀ srcs, Issues (versS 0 0) versT srcs [10] ∧ Issues (versS 1 0) versT srcs [10])
      ∧ (versS 0 0).vtab = some 0x8000 ∧ validRegions (versS 0 0).mem 0x8000 = [0]
      -- the codes in order: the partition may publish; masks 0, 2 and 1; versions 65536 and 0; LASTPUB; no free slot
      ∧ bitAt ((versS 0 0).mem.readN 0x8010 2) 0 = true ∧ bitAt ((versS 0 0).mem.readN 0x8010 2) 1 = false
      ∧ (versT.src 6).toNat = 0 ∧ (bitAt (versT.src 11).toNat 1 = true ∧ 1 ∉ [0]) ∧ bitAt (versT.src 5).toNat 0 = true
      ∧ 2 ^ 16 ≤ (versT.src 8).toNat ∧ verAfter ((versT.src 6).setWidth 16) (latest (versS 0 0).mem 0x8000) = false
      ∧ verAfter ((versT.src 7).setWidth 16) (latest (versS 0 0).mem 0x8000) = true
      ∧ (2 ^ 15 ≤ (0x8000 - BitVec.ofNat 16 (readRegion (versS 0 0).mem 0x8000 0).lastpub).toNat ∧ bitAt 2 0 = false)
      ∧ (let free (lo : BitVec 8) (j : Nat) : Prop := (readRegion (versS lo 0).mem 0x8000 0).st j = 1 ∧ (readRegion (versS lo 0).mem 0x8000 0).pin j = 0
        (∀ j, j < 4 → ¬ free 1 j) ∧ free 0 1))
    ∧ (versT.pubV = none ∧ Issues (sys takenT) takenT [5] [9] ∧ takenT.pubV = some 1)
    ∧ (readRegion (versS 0 0).mem 0x8000 0).staging = some 0 ∧ (readRegion (versS 0 0).mem 0x8000 0).free = some 1 :=
  ⟨⟨rfl, rfl, idle _ rfl rfl rfl rfl _ _, rfl, fun _ => ⟨ready _ _ rfl rfl rfl rfl _ _, ready _ _ rfl rfl rfl rfl _ _⟩, by decide +kernel⟩,
    ⟨rfl, idle _ rfl rfl rfl rfl _ _, rfl⟩, rfl, rfl⟩

theorem witness_PinInstructions :
    (Issues (sys versT) versT [5] [9] ∧ (sys versT).vtab = none ∧ Issues (versS 0 0) versT [8] [10] ∧ (versS 0 0).vtab = some 0x8000
      ∧ 65536 ≤ (versT.src 8).toNat ∧ Issues (versS 0 0) versT [7] [10] ∧ (versT.src 9).toNat < 65536
      ∧ latest (versS 0 0).mem 0x8000 ≠ (versT.src 7).setWidth 16
      ∧ (∀ p ∈ (versS 0 0).parts.toList, p.valid = true → p.bound = false)
      ∧ Issues (versS 0 0) versT [6] [10] ∧ latest (versS 0 0).mem 0x8000 = (versT.src 6).setWidth 16
      ∧ resolvedSlots (versS 0 0).mem 0x8000 0 = [(0, 1)] ∧ (readRegion (versS 0 0).mem 0x8000 0).pin 1 = 0
      ∧ resolvedSlots (versS 0xEF 0xFF).mem 0x8000 0 = [(0, 1)] ∧ (readRegion (versS 0xEF 0xFF).mem 0x8000 0).pin 1 = 65519
      ∧ vpinCount (versS 0 0) (0, 1) = 0 ∧ vpinCount { versS 1 0 with vpins := [(1, 1)] } (0, 1) ≠ 0
      ∧ (0 ∈ validRegions (versS 0 0).mem 0x8000 ∧ (readRegion (versS 0 0).mem 0x8000 0).resolve 0 = some 1)
      ∧ Cells.get 0 (versS 0 0).vpins 1 = 0)
    ∧ (1 : BitVec 16) ≠ 0 ∧ ((1 : BitVec 16) - 0).toNat ≠ 2 ^ 15
    ∧ (readRegion (versS 0 0).mem 0x8000 0).resolve 0 = some 1 ∧ (readRegion [] 0x8000 0).resolve 0 = none :=
  ⟨⟨idle _ rfl rfl rfl rfl _ _, rfl, ready _ _ rfl rfl rfl rfl _ _, rfl, by decide, ready _ _ rfl rfl rfl rfl _ _, by decide, by decide +kernel,
    by decide +kernel, ready _ _ rfl rfl rfl rfl _ _, rfl, rfl, rfl, rfl, rfl, rfl, by decide +kernel,
    by decide +kernel, rfl⟩, by decide, by decide, rfl, rfl⟩

def sttokT : Thread := vals user [(5, 0x1000000000000), (6, 0xFFFFFFFFFFFF), (8, 0x40000000)]

theorem witness_TileLogAndVersionStores_store :
    (Issues (sys sttokT) sttokT [8, 5] [] ∧ 2 ^ 48 ≤ (sttokT.src 5).toNat ∧ canStop (sys sttokT) sttokT = true)
    ∧ Issues (sys sttokT) sttokT [8, 6] [] ∧ (sttokT.src 6).toNat < 2 ^ 48 ∧ sttokT.det = false ∧ aligned (sttokT.src 8) 8 = true
    ∧ locate (sys sttokT) (sttokT.who (sys sttokT)) (sttokT.src 8) .write false = (.at (.mem (2 ^ 53)), sys sttokT)
    ∧ Issues (sys detS) detS [5, 6] [] ∧ (detS.src 6).toNat < 2 ^ 48 ∧ 0x5000 < 2 ^ 53 ∧ detS.comb.length < 8192
    ∧ locate (sys detS) (detS.who (sys detS)) (detS.src 5) .write false = (.at (.mem 0x5000), sys detS) :=
  ⟨⟨idle _ rfl rfl rfl rfl _ _, by decide, rfl⟩, idle _ rfl rfl rfl rfl _ _, by decide, rfl, rfl, rfl, idle _ rfl rfl rfl rfl _ _, by decide,
    by decide, by decide, rfl⟩

/-! ### Streams, queue registers and the other registers of the CTL major -/

def streamS (m : Memory) : State := { State.reset with threads := [regsS], mem := m, parts := State.reset.parts.setIfInBounds 0 bootPart }
def aBlk : StreamBlk := { desc := ⟨0x6000, [1], [4], 1, 0, 0, 0⟩, reg := 3, pos := 2 }
def blkT : Thread := { regsS with streams := (Vector.replicate 8 none).setIfInBounds 7 (some aBlk) }
def qbT : Thread := { regsS with q := (Vector.replicate 8 {}).setIfInBounds 0 { entries := [1, 2], general := some 5, vector := some 4 } }

theorem witness_StreamBlocks :
    (Issues (streamS []) regsS [5] [] ∧ regsS.blk 7 = none ∧ (31 : BitVec 6).toNat < nregsOf regsS.splitC ∧ regsS.vecBound 31 1 = false ∧ aligned (regsS.src 5) 32 = true
      ∧ (∃ bs, readBlockC regsS 3 (regsS.src 5) (streamS []) = .ok bs (streamS []) ∧ streamDescOk bs = false)
      ∧ Issues (streamS [(0x5050, 1)]) regsS [5] []
      ∧ (∃ bs, readBlockC regsS 3 (regsS.src 5) (streamS [(0x5050, 1)]) = .ok bs (streamS [(0x5050, 1)]) ∧ streamDescOk bs = true
        ∧ (parseStream bs).grp = 0)
      ∧ (reg6 (preDh .none) 31).toNat % 1 = 0 ∧ (reg6 (preDh .none) 31).toNat + 1 ≤ nregsOf regsS.splitC ∧ canStop (streamS []) regsS = true)
    ∧ (blkT.blk 7 = some aBlk ∧ Issues (sys blkT) blkT [] [9] ∧ Issues (sys blkT) blkT [9] [] ∧ blkT.blk 0 = none ∧ canStop (sys blkT) blkT = true)
    ∧ (Issues (sys blkT) blkT [] [] ∧ (blkT.qAt 7).general = none ∧ blkT.boundQ 9 = none ∧ (blkT.qAt 7).vector = none
      ∧ blkT.vecBound 5 1 = false
      ∧ Issues (sys qbT) qbT [] [] ∧ (qbT.qAt 0).general ≠ none ∧ (qbT.qAt 0).vector ≠ none ∧ qbT.isPending 9 = false
      ∧ ((qbT.issued []).setQ 0 { qbT.qAt 0 with general := none, vector := none }).dstFull [] 9 = false) :=
  ⟨⟨ready _ _ rfl rfl rfl rfl _ _, rfl, by decide, rfl, rfl, ⟨_, rfl, rfl⟩, ready _ _ rfl rfl rfl rfl _ _, ⟨_, rfl, rfl, rfl⟩, by decide, by decide, rfl⟩,
    ⟨rfl, idle _ rfl rfl rfl rfl _ _, idle _ rfl rfl rfl rfl _ _, rfl, rfl⟩,
    idle _ rfl rfl rfl rfl _ _, rfl, rfl, rfl, rfl, ⟨rfl, rfl, rfl, rfl, rfl, rfl⟩, by decide, by decide, rfl, rfl⟩

def ctlT : Thread :=
  { vals sup [(5, 0x5000), (6, 0xC0001), (7, 0x280800), (8, 0xFF00000000000000), (9, 0x17), (10, 8), (11, 0x1FFFF00000000), (12, 7)] with
    n := (Vector.replicate 8 0).setIfInBounds 7 (mkGroup 0 0 0 7 1 0 1) }
def ctlS : State := { State.reset with threads := [ctlT], mem := [(0x500C, 1)], parts := State.reset.parts.setIfInBounds 0 bootPart }

theorem witness_ControlRegisters :
    (Issues (sys ctlT) ctlT [5, 6] []
      ∧ (∀ r ∈ [(6 : Reg), 7], let v := (ctlT.src r).toNat
          1 ≤ v % 2 ^ 12 ∧ v % 2 ^ 12 ≤ 2048 ∧ fld v 12 4 = 0 ∧ 12 ≤ fld v 16 6 ∧ fld v 16 6 ≤ 40 ∧ v < 2 ^ 22)
      ∧ fld (ctlT.src 5).toNat 56 8 = 0 ∧ fld (ctlT.src 8).toNat 56 8 = 255
      ∧ (∀ r ∈ [(9 : Reg), 12], let x := (ctlT.src r).toNat; x < 2 ^ 6 ∧ fld x 4 2 ≤ 1 ∧ (bitAt x 3 = true → x % 8 = 0))
      ∧ (ctlT.src 10).toNat % 8 = 0 ∧ Issues (sys ctlT) ctlT [9, 10] [])
    ∧ (Issues ctlS ctlT [5] [] ∧ aligned (ctlT.src 5) 32 = true
      ∧ (∃ bs, readBlockC ctlT 1 (ctlT.src 5) ctlS = .ok bs ctlS ∧ ofBytesLE ((bs.drop 12).take 4) = 1 ∧ ofBytesLE ((bs.drop 8).take 4) = 0
        ∧ ofBytesLE ((bs.drop 16).take 1) ≤ 7 ∧ ofBytesLE ((bs.drop 17).take 3) = 0 ∧ ofBytesLE ((bs.drop 24).take 8) = 0)
      ∧ Issues ctlS ctlT [11] [] ∧ grpValid (ctlT.grp 7) = true ∧ (ctlT.src 11).toNat < 2 ^ 49
      ∧ (ctlT.src 11).toNat % 2 ^ 32 < (grpCount (ctlT.grp 7)).toNat ∧ Issues ctlS ctlT [] [9] ∧ grpValid (ctlT.grp 0) = false) :=
  ⟨⟨idle _ rfl rfl rfl rfl _ _, by decide +kernel, by decide, by decide, by decide +kernel, by decide, idle _ rfl rfl rfl rfl _ _⟩,
    ready _ _ rfl rfl rfl rfl _ _, rfl, ⟨_, rfl, rfl, rfl, by decide +kernel, rfl, rfl⟩, ready _ _ rfl rfl rfl rfl _ _, by decide +kernel, by decide,
    by decide +kernel, ready _ _ rfl rfl rfl rfl _ _, by decide +kernel⟩

/-! ### The vector queue -/

/-- An idle thread may push an instruction that needs no completion object, once the checks on its operands are met. -/
theorem may (s : State) (t : Thread) (i : Instr) (hs : s.thread? s.cur = some t) (hr : t.active? = true) (hv : t.queue = [])
    (hq : t.q = Vector.replicate 8 {}) (h3 : bufferBusy t (qForm (expand t.lvd i)) = false)
    (h4 : recordBad t (expand t.lvd i) (qForm (expand t.lvd i)) = false)
    (h5 : chainOk t (capture s t (expand t.lvd i)) (qForm (expand t.lvd i)) = true) (h6 : handleOk t (qForm (expand t.lvd i)) = true)
    (h7 : ((capture s t (expand t.lvd i)).info t.splitC).passes t.splitC = true)
    (h8 : boundOk t (capture s t (expand t.lvd i)) ((capture s t (expand t.lvd i)).info t.splitC) = true)
    (h9 : objectAddr (capture s t (expand t.lvd i)) (qForm (expand t.lvd i)) = none) : MayPush s t i := by
  have hp : ∀ r, t.isPending r = false := fun r => by simp [Thread.isPending, hv]
  refine ⟨ready s t hs hr hv hq _ _, ?_, h3, h4, h5, h6, h7, h8, fun a h => ?_, by simp [hv]⟩
  · cases pendingReg (expand t.lvd i) <;> simp [hp]
  · rw [h9] at h
    cases h

def pushT : Thread := { regsS with vl := 8, lvd := 4 }

theorem witness_VectorPushes :
    MayPush (sys pushT) pushT (.vaddVv ⟨.none, 2, false, false, 1, 2, 3⟩) ∧ MayPush (sys pushT) pushT (.vmvVg ⟨.none, 2, false, false, 9, 0, 31⟩)
      ∧ MayPush (sys pushT) pushT (.vreconf ⟨.none, 3, false, false, 0, 0, 0⟩) ∧ MayPush (sys pushT) pushT (.cvVaddI32 1 3) :=
  ⟨may _ _ _ rfl rfl rfl rfl rfl rfl rfl rfl rfl rfl rfl, may _ _ _ rfl rfl rfl rfl rfl rfl rfl rfl rfl rfl rfl,
    may _ _ _ rfl rfl rfl rfl rfl rfl rfl rfl rfl rfl rfl, may _ _ _ rfl rfl rfl rfl rfl rfl rfl rfl rfl rfl rfl⟩

theorem witness_MemoryAndEnginePushes :
    MayPush (sys pushT) pushT (.vld ⟨.none, 2, false, false, 0, 5, 3⟩) ∧ MayPush (sys pushT) pushT (.aalloc ⟨.none, 0, false, 0, 1, 9⟩)
      ∧ MayPush (sys ctlT) ctlT (.vcoll ⟨.none, 0, 0, 2, false, 7, 2, 3⟩) :=
  ⟨may _ _ _ rfl rfl rfl rfl rfl rfl rfl rfl rfl rfl rfl, may _ _ _ rfl rfl rfl rfl rfl rfl rfl rfl rfl rfl rfl,
    may _ _ _ rfl rfl rfl rfl rfl rfl rfl rfl rfl rfl rfl⟩

def entry (i : Instr) (vl : BitVec 14) : QEntry := { instr := i, pc := 0x1000, vl := vl, vtype := 2 }
def queued (t : Thread) (e : QEntry) : Thread := { t with queue := [e] }
def maskE : QEntry := entry (.mand ⟨.none, 0, false, false, 1, 2, 3⟩) 1
def loadE : QEntry := entry (.vld ⟨.none, 2, false, false, 0, 5, 3⟩) 1
def fenceE : QEntry := entry (.vfenceD ⟨.none, 0, false, 0, 0, 0⟩) 0

/-- A FENCE that waits for a token that is not there and a lattice instruction. -/
def tokE : QEntry := entry (.vfenceD ⟨.tile 0 1, 0, false, 0, 0, 0⟩) 0
def latE : QEntry := entry (.aclr ⟨.none, 0, false, 0, 0, 1⟩) 0
def tilesT : Thread := { user with h0 := some { tile := 0 }, h1 := some { tile := 1 } }
/-- The same FENCE, one element on. -/
def onE : QEntry := { fenceE with vstart := 1 }

/-- The premises of EntryStarts on an entry alone in the queue, but that on its token. -/
def Starts (s : State) (t : Thread) (e : QEntry) : Prop :=
  s.thread? t.slot = some t ∧ t.vectorRuns = true ∧ t.queue = [] ++ e :: [] ∧ (t.queue.any fun x => x.live) = false ∧ e.started = false
    ∧ t.replay = none ∧ (∀ o, e.instr ≠ .vreplay o) ∧ readyTokp s t [] t.queue = none ∧ e.blks = [] ∧ e.qs = [] ∧ e.strips = []
    ∧ e.pages = [] ∧ e.stopAt = none ∧ e.late = false ∧ mayStart s t [] e = true ∧ e.spent (qForm e.instr) = false
    ∧ (isLat (qForm e.instr) = true → latticeFree s t = true) ∧ roomReady t e (e.info t.splitV) = true
/-- The entry as its start performs it. -/
def opened (e : QEntry) : QEntry := { e with popped := true, base := e.vstart }

theorem starts_user (t : Thread) (e : QEntry) (h : ∀ o, e.instr ≠ .vreplay o) (hd : (sys t).thread? t.slot = some t ∧ t.vectorRuns = true
    ∧ t.queue = [e] ∧ (t.queue.any fun x => x.live) = false ∧ e.started = false ∧ t.replay = none ∧ readyTokp (sys t) t [] t.queue = none
    ∧ e.blks = [] ∧ e.qs = [] ∧ e.strips = [] ∧ e.pages = [] ∧ e.stopAt = none ∧ e.late = false ∧ mayStart (sys t) t [] e = true
    ∧ e.spent (qForm e.instr) = false ∧ (isLat (qForm e.instr) = true → latticeFree (sys t) t = true)
    ∧ roomReady t e (e.info t.splitV) = true) : Starts (sys t) t e := by
  obtain ⟨a, b, c, d, f, g, k⟩ := hd
  exact ⟨a, b, c, d, f, g, h, k⟩

theorem witness_EntryStarts :
    (Starts (sys (queued user maskE)) (queued user maskE) maskE ∧ tokensReady (queued user maskE) maskE (qForm maskE.instr) = true
      ∧ ∃ s2 u, effect (sys (queued user maskE)) (queued user maskE) (opened maskE) 1 = .done s2 u)
    ∧ (Starts (sys (queued user tokE)) (queued user tokE) tokE ∧ tokensReady (queued user tokE) tokE (qForm tokE.instr) = false
      ∧ isLat (qForm tokE.instr) = false)
    ∧ (Starts (sys (queued tilesT latE)) (queued tilesT latE) latE ∧ isLat (qForm latE.instr) = true
      ∧ latticeFree (sys (queued tilesT latE)) (queued tilesT latE) = true)
    ∧ (Starts (sys (queued det fenceE)) (queued det fenceE) fenceE ∧ emptyRun (opened fenceE) = false
      ∧ ∃ s2 u, effect (sys (queued det fenceE)) (queued det fenceE) (opened fenceE) 0 = .started s2 u)
    ∧ (Starts (sys (queued user loadE)) (queued user loadE) loadE ∧ emptyRun (opened loadE) = false
      ∧ ∃ s2 u f tr, effect (sys (queued user loadE)) (queued user loadE) (opened loadE) 1 = .fault s2 u f tr)
    ∧ (let t : Thread := { queued det fenceE with draining := true }
       Starts (sys t) t fenceE ∧ ∃ s2 u f, effect (sys t) t (opened fenceE) 0 = .hold s2 u f)
    ∧ (let t : Thread := { queued det onE with draining := true }
       Starts (sys t) t onE ∧ emptyRun (opened onE) = false ∧ ∃ s2 u, effect (sys t) t (opened onE) 0 = .hold s2 u 0) := by
  refine ⟨⟨starts_user _ _ nofun ?_, rfl, _, _, rfl⟩, ⟨starts_user _ _ nofun ?_, rfl, rfl⟩, ⟨starts_user _ _ nofun ?_, rfl, by decide +kernel⟩,
    ⟨starts_user _ _ nofun ?_, rfl, _, _, rfl⟩, ⟨starts_user _ _ nofun ?_, rfl, _, _, _, _, rfl⟩, ⟨starts_user _ _ nofun ?_, _, _, _, rfl⟩,
    ⟨starts_user _ _ nofun ?_, rfl, _, _, rfl⟩⟩ <;> decide +kernel

def doneE : QEntry := { maskE with started := true, done := true }
def extE : QEntry := { entry (.vext ⟨.none, 2, false, false, 0, 1, 9⟩) 1 with started := true, done := true, result := some 7 }
def badE : QEntry := { loadE with started := true, fault := some { code := 3 } }
/-- A CHRUN that has placed the sixteen commands of a whole channel group, and its execution; it stands behind `badE`. -/
def groupE : QEntry := { entry (.chrun ⟨.none, 7, false, false, 0, 5, 3⟩) 0 with seq := 1, started := true }
def groupC : ChrunOp :=
  { id := 0, slot := 0, launch := 1, rank := 0, part := 0, sup := false, aspace := 0, ver := 0, seq := 1, obj := none, push := none,
    unplaced := [{ op := 0, idx := 16, bank := 5, off := 0, seed := 0, frm := 0 }], top := 16, total := 17, fin := true }
def cutT : Thread := { user with queue := [badE, groupE], chOut := 17 }
def cutS : State := { sys cutT with chruns := [groupC] }
/-- A store that the V stream holds for `extE`. -/
def heldV : Thread := { queued user extE with vbuf := [⟨0, 0x5000, [1]⟩, ⟨1, 0x5001, [2]⟩] }

theorem witness_EntryCommits :
    ((sys (queued user extE)).thread? 0 = some (queued user extE) ∧ (queued user extE).slot = 0 ∧ (queued user extE).vectorRuns = true
      ∧ (queued user extE).queue = extE :: [] ∧ extE.fault = none ∧ extE.done = true ∧ commitRoom (queued user extE) extE = true
      ∧ pendingReg extE.instr = some 9 ∧ extE.result = some 7)
    ∧ ((sys (queued user maskE)).thread? 0 = some (queued user maskE) ∧ (queued user maskE).queue = maskE :: [] ∧ maskE.fault = none
      ∧ maskE.done = false)
    ∧ ((sys (queued user badE)).thread? 0 = some (queued user badE) ∧ (queued user badE).queue = badE :: [] ∧ badE.fault = some { code := 3 }
      ∧ badE.done = false ∧ canStop (sys (queued user badE)) (queued user badE) = true
      ∧ ((queued user badE).issues && (sys (queued user badE)).cyc < badE.trapFrom) = false)
    ∧ (cutS.thread? 0 = some cutT ∧ cutT.queue = badE :: [groupE] ∧ canStop cutS cutT = true ∧ groupE.done = false
      ∧ cutS.chrunsOf cutT = [groupC] ∧ groupC.unplaced ≠ [] ∧ ownEntry groupC groupE = true ∧ groupC.groupEnd = 16)
    ∧ (heldV.queue = extE :: [] ∧ (heldV.vbuf.filter fun v => v.seq == extE.seq) = [⟨0, 0x5000, [1]⟩]) :=
  ⟨⟨rfl, rfl, rfl, rfl, rfl, rfl, rfl, rfl, rfl⟩, ⟨rfl, rfl, rfl, rfl⟩, ⟨rfl, rfl, rfl, rfl, rfl, rfl⟩,
    ⟨rfl, rfl, by decide +kernel, rfl, rfl, by decide, rfl, rfl⟩, rfl, rfl⟩

theorem witness_VectorElementResults :
    (4 ≤ (entry (.eret) 4).vl.toNat ∧ ({ entry (.eret) 4 with vstart := 4 } : QEntry).vstart.toNat ≤ 4 ∧ (7 : Reg).toNat < 8)
      ∧ 3 ≤ (entry (.eret) 4).vl.toNat ∧ (entry (.eret) 4).vstart.toNat ≤ 3 := by decide

theorem witness_MaskAndHandleEffects :
    (7 : Reg).toNat < 8 ∧ (8192 : BitVec 14).toNat ≤ 8192 ∧ tilesT.hnd (1 : Reg).toNat = some { tile := 1 }
      ∧ ((sys user).facet user.facet).waiters = [] ∧ freeTiles (sys user) user.facet = [0, 1] ∧ freeTiles (sys tilesT) tilesT.facet = [] :=
  ⟨by decide, by decide, rfl, rfl, rfl, rfl⟩

def readE : QEntry := { entry (.vaddVv ⟨.none, 2, false, false, 1, 3, 4⟩) 2 with blks := [aBlk], posA := 2 }
def owesT : Thread := { regsS with owed := [⟨0, [(0x6000, [1, 2]), (0x6002, [3])], [4]⟩] }
def owesLast : Thread := { regsS with owed := [⟨0, [(0x6000, [1, 2])], [4]⟩] }

theorem witness_StreamAccesses :
    (let t := queued regsS readE
     (sys t).thread? t.slot = some t ∧ t.queue[0]? = some readE ∧ readE.started = false ∧ t.vectorRuns = true
     ∧ (t.queue.take 1).any holdsStrips = false ∧ readE.strips = [] ∧ readE.fresh ∧ readE.vl.toNat ≤ 8192
     ∧ stripFree t (t.queue.take 0) aBlk = true ∧ (qForm readE.instr).waits = none
     ∧ ∃ v, streamSrcs readE (readE.info t.splitV) = [(aBlk, v, 2)]
       ∧ ∀ k, readE.vstart.toNat ≤ k → k < readE.vl.toNat → 2 + k < aBlk.len →
         (⟨k, aBlk.desc.addr (2 + k), aBlk.fmt.bytes, .read, false⟩ : Want).placed (sys t) (readE.who t) id)
    ∧ (sys owesT).thread? owesT.slot = some owesT ∧ owesT.owed = ⟨0, [(0x6000, [1, 2]), (0x6002, [3])], [4]⟩ :: []
    ∧ (sys owesLast).thread? owesLast.slot = some owesLast ∧ owesLast.owed = ⟨0, [(0x6000, [1, 2])], [4]⟩ :: []
      ∧ ∀ p ∈ ([] : List OwedStores).head?, p.stores ≠ [] := by
  refine ⟨⟨rfl, rfl, rfl, rfl, rfl, rfl, ⟨rfl, rfl, rfl, rfl⟩, by decide, rfl, rfl, ⟨_, rfl, fun k _ h _ => ⟨?_, fun _ _ => Nat.add_comm ..⟩⟩⟩,
    rfl, rfl, rfl, rfl, nofun⟩
  have h2 : k < 2 := h
  interval_cases k <;> rfl

/-! ### Events -/

def blockedIn (t : Thread) (i : Instr) : Thread := { t with run := .blocked i }
def leftS (t : Thread) : State := (sys t).setPart 0 (groupP [{ mine 9 with leaving := [⟨1, 0, 0, 3⟩] }] bootPart)
def leaver (i : Instr) : Thread := { blockedIn regsA i with arrived := true }

theorem witness_WakesCompleteWaits :
    (∀ i ∈ [Instr.fence 0, .isync, .stbar .none 15], let t := blockedIn regsA i
      t.run = .blocked i ∧ Issues { sys t with cur := t.slot } t [] [] ∧ t.queue = [] ∧ t.owed = [] ∧ t.det = false
        ∧ stbarReady { sys t with cur := t.slot } t 15 = true)
    ∧ (∀ i ∈ [Instr.tlbinv 9 8, .tlbinvA 9], let t := blockedIn regsS i
      t.run = .blocked i ∧ t.sup = true ∧ (∀ f, translationsDone { sys t with cur := t.slot } f = true)
        ∧ Issues { sys t with cur := t.slot } t [8, 9] [] ∧ Issues { sys t with cur := t.slot } t [9] []
        ∧ (t.src 9).toNat < 2 ^ 16 ∧ fld (t.src 9).toNat 16 47 = 0)
    ∧ (∀ i ∈ [Instr.barg 9 5, .toksw 9 5, .tokswMin 10 9 5], let t := leaver i
      t.run = .blocked i ∧ t.arrived = true ∧ Issues { leftS t with cur := t.slot } t [9] [5]
        ∧ Issues { leftS t with cur := t.slot } t [9, 10] [5] ∧ (t.src 10).toNat < 2 ^ 16
        ∧ ∃ s1, takeLeave (checkEpisode { leftS t with cur := t.slot } t.part ((t.src 9).setWidth 32)) t ((t.src 9).setWidth 32) = some (3, s1))
    ∧ (∀ i ∈ [Instr.waitw 0 9 5 6, .waitc .none 5 6, .waitt 6 7, .chwait .none 7], let t := blockedIn regsA i
      let w : State := { sys t with cur := t.slot, mem := [(2 ^ 53, 1)] }
      t.run = .blocked i ∧ aligned (t.src 5) 8 = true ∧ locate w (t.who w) (t.src 5) .read false = (.at (.mem (2 ^ 53)), w)
        ∧ Issues w t [5, 9] [6] ∧ BitVec.ofNat 64 (loadT w t (.mem (2 ^ 53)) 8) ≠ t.src 9 ∧ Issues w t [5] [6]
        ∧ loadT w t (.mem (2 ^ 53)) 8 % 256 ≠ 0 ∧ Issues w t [6] [7] ∧ (t.src 6).toNat ≤ (sys t).time.toNat ∧ Issues w t [] [7]
        ∧ t.queue = [] ∧ t.chOut = 0)
    ∧ (let t := blockedIn versT (.vpublWait 5 10)
       let w : State := { versS 0 0 with threads := [t], cur := t.slot }
       t.run = .blocked (.vpublWait 5 10) ∧ Issues w t [5] [10] ∧ t.queue = [] ∧ t.det = false ∧ w.vtab = some 0x8000
       ∧ publishNow w t (t.src 5).toNat none true = .step 1 [0])
    ∧ (let i := Instr.vaddVv ⟨.none, 2, false, false, 1, 2, 3⟩
       let t := blockedIn pushT i
       t.run = .blocked i ∧ MayPush { sys t with cur := t.slot } t i ∧ Machine.queued i = true)
    ∧ (let t := blockedIn boundT (.add 6 9 9)
       t.run = .blocked (.add 6 9 9) ∧ (sys t).thread? t.slot = some t ∧ t.amo = none ∧ t.draining = false
       ∧ (t.qAt 7).general.isSome = true) := by
  refine ⟨?_, ?_, ?_, ?_, ⟨rfl, ready _ _ rfl rfl rfl rfl _ _, rfl, rfl, rfl, rfl⟩,
    ⟨rfl, may _ _ _ rfl rfl rfl rfl rfl rfl rfl rfl rfl rfl rfl, rfl⟩, ⟨rfl, rfl, rfl, rfl, rfl⟩⟩
  · intro i _
    exact ⟨rfl, ready _ _ rfl rfl rfl rfl _ _, rfl, rfl, rfl, rfl⟩
  · intro i hi
    simp only [List.mem_cons, List.not_mem_nil, or_false] at hi
    rcases hi with rfl | rfl <;>
      exact ⟨rfl, rfl, fun _ => rfl, ready _ _ rfl rfl rfl rfl _ _, ready _ _ rfl rfl rfl rfl _ _, by decide +kernel, by decide +kernel⟩
  · intro i hi
    simp only [List.mem_cons, List.not_mem_nil, or_false] at hi
    rcases hi with rfl | rfl | rfl <;>
      exact ⟨rfl, rfl, ready _ _ rfl rfl rfl rfl _ _, ready _ _ rfl rfl rfl rfl _ _, by show (64 : BitVec 64).toNat < 2 ^ 16; decide, ⟨_, rfl⟩⟩
  · intro i hi
    simp only [List.mem_cons, List.not_mem_nil, or_false] at hi
    rcases hi with rfl | rfl | rfl | rfl <;>
      exact ⟨rfl, rfl, rfl, ready _ _ rfl rfl rfl rfl _ _, by decide +kernel, ready _ _ rfl rfl rfl rfl _ _, by decide +kernel,
        ready _ _ rfl rfl rfl rfl _ _, by decide, ready _ _ rfl rfl rfl rfl _ _, rfl, rfl⟩

/-! ### Vector effects -/

theorem reaches_low (s : State) (h : s.hdmbase = 0) {a : Nat} (ha : a < 2 ^ 40) : reaches s a = true := by
  have h1 : winOffset s a = some a := by
    unfold winOffset
    rw [h]
    simp
    omega
  unfold reaches
  rw [h1]
  simp
  omega

/-- For whom a thread of slot 0 in supervisor mode accesses memory: no page table, no version. -/
def low : Who := ⟨0, 0, true, 0, 0⟩

theorem noAperture (va : BitVec 64) (k : Acc1) (h : va.toNat < 2 ^ 28 ∨ 2 ^ 44 ≤ va.toNat) : aperture bootPart 0 va k = none := by
  unfold aperture
  have h1 : bootPart.uva.toNat = 0x40000000 := rfl
  have h2 : bootPart.cva.toNat = 0x40400000 := rfl
  simp only [h1, h2]
  rw [if_neg (by omega), if_neg (by omega)]

theorem locate_eq (t : Thread) (va : BitVec 64) (k : Acc1) (log : Bool) (h : va.toNat < 2 ^ 28 ∨ 2 ^ 44 ≤ va.toNat) :
    locate (sys t) low va k log = match paged (sys t) low va k with
      | (.ok pa, s) => (.at (.mem pa), s)
      | (.error e, s) => (.bad e, s) := by
  have hp : (sys t).parts.toList.getD low.part {} = bootPart := rfl
  unfold locate
  simp only [hp]
  rw [show low.slot = 0 from rfl, noAperture va k h]
  rfl

theorem locate_low (t : Thread) (va : BitVec 64) (k : Acc1) (log : Bool) (h : va.toNat < 2 ^ 28 ∨ 2 ^ 44 ≤ va.toNat ∧ va.toNat < 2 ^ 52) :
    locate (sys t) low va k log = (.at (.mem va.toNat), sys t) := by
  have h1 : pageWalk (sys t) low va k = .ok (va.toNat, (sys t).mem) := by
    unfold pageWalk
    rw [if_pos (by decide), if_neg (by decide), if_neg (by omega)]
  have h2 : checkPhys (sys t) bootPart va k va.toNat = .ok va.toNat := by
    have hb : reaches (sys t) va.toNat = true ∧ bankAt (sys t) va.toNat = none := by
      have h0 : (sys t).hdmbase.toNat = 0 := rfl
      unfold reaches bankAt winOffset
      rw [h0]
      rcases h with h | h
      · rw [if_pos (by omega)]
        simp
        omega
      · rw [if_neg (by omega)]
        simp
        omega
    unfold checkPhys
    rw [hb.1, hb.2]
    rfl
  rw [locate_eq t va k log (by omega)]
  unfold paged
  rw [h1]
  simp only
  rw [show (sys t).parts.toList.getD low.part {} = bootPart from rfl, h2]

theorem locate_high (t : Thread) (va : BitVec 64) (k : Acc1) (log : Bool) (h : 2 ^ 52 ≤ va.toNat) :
    locate (sys t) low va k log = (.bad (accTrap 4 va k), sys t) := by
  have h1 : pageWalk (sys t) low va k = .error (accTrap 4 va k) := by
    unfold pageWalk
    rw [if_pos (by decide), if_neg (by decide), if_pos (by omega)]
  rw [locate_eq t va k log (by omega)]
  unfold paged
  rw [h1]

theorem found_low (t : Thread) (n b : Nat) (va : BitVec 64) (k : Acc1) (log : Bool) (ha : aligned va b = true) (h : va.toNat < 2 ^ 28) :
    (⟨n, va, b, k, log⟩ : Want).found (sys t) low id :=
  ⟨ha, by simp only; rw [locate_low t _ _ _ (.inl h)]; simp only [placeOf, id, Nat.div_add_mod], fun _ _ => Nat.add_comm ..⟩

theorem fails_high (t : Thread) (n b : Nat) (va : BitVec 64) (k : Acc1) (log : Bool) (ha : aligned va b = true) (h : 2 ^ 52 ≤ va.toNat) :
    (⟨n, va, b, k, log⟩ : Want).fails (sys t) low (accTrap 4 va k) := .inr ⟨ha, locate_high t _ _ _ h⟩

/-- Without a page table a page is the smallest. -/
theorem level_low (t : Thread) (a : Want) : a.level (sys t) low = 0 := by
  unfold Want.level leafLevel
  split <;> rfl

/-- Accesses of element 0, below 2^52 the last word, and of element 1, beyond. -/
theorem fails_at_one (t : Thread) (k : Acc1) (log : Bool) :
    FailsAt (sys t) low id [⟨0, 0xFFFFFFFFFFFFC, 4, k, log⟩, ⟨1, 0x10000000000000, 4, k, log⟩] 1 (accTrap 4 0x10000000000000 k) := by
  refine ⟨[_], _, [], rfl, rfl, fails_high t _ _ _ k log (by decide) (by decide), ?_, ?_, ?_⟩
  · intro b hb
    rw [List.mem_singleton.1 hb]
    refine ⟨⟨show aligned (0xFFFFFFFFFFFFC : BitVec 64) 4 = true by decide, ?_, fun _ _ => Nat.add_comm ..⟩, Nat.zero_le 1⟩
    simp only
    rw [locate_low t _ _ _ (.inr (by decide))]
    rfl
  · intro b hb _
    rw [List.mem_singleton.1 hb, level_low]
    exact show (0xFFFFFFFFFFFFC : BitVec 64).toNat / (4096 * 512 ^ 0) ≠ (0x10000000000000 : BitVec 64).toNat / (4096 * 512 ^ 0) by decide
  · exact nofun

/-- Accesses that all fail: the first one's fault counts. -/
theorem fails_at_zero (t : Thread) (as : List Want) (a : Want)
    (h : ∀ b ∈ a :: as, aligned b.va b.bytes = true ∧ 2 ^ 52 ≤ b.va.toNat ∧ a.elem ≤ b.elem) :
    FailsAt (sys t) low id (a :: as) a.elem (accTrap 4 a.va a.kind) := by
  have h0 := h a (List.mem_cons_self ..)
  refine ⟨[], a, as, rfl, rfl, fails_high t _ _ _ _ _ h0.1 h0.2.1, nofun, nofun, fun b hb => ?_⟩
  have := h b (List.mem_cons_of_mem _ hb)
  exact ⟨this.2.2, .inr ⟨_, fails_high t _ _ _ _ _ this.1 this.2.1⟩⟩

theorem fails_at_start (t : Thread) (k : Acc1) (log : Bool) :
    FailsAt (sys t) low id [⟨0, 0x10000000000000, 4, k, log⟩] 0 (accTrap 4 0x10000000000000 k) :=
  ⟨[], _, [], rfl, rfl, fails_high t _ _ _ k log (by decide) (by decide), nofun, nofun, nofun⟩

theorem step_toNat (b n k : Nat) (h : b + n * k < 2 ^ 64) : (BitVec.ofNat 64 b + BitVec.ofNat 64 (n * k)).toNat = b + n * k := by
  rw [BitVec.toNat_add, BitVec.toNat_ofNat, BitVec.toNat_ofNat]
  omega

/-- Pieces of `n` bytes from an address on. -/
def pieces (b n len : Nat) (k : Acc1) : List Want := (List.range len).map fun i => ⟨0, BitVec.ofNat 64 b + BitVec.ofNat 64 (n * i), n, k, false⟩

theorem pieces_found (t : Thread) (b n len : Nat) (k : Acc1) (hb : b % 32 = 0) (hn : n ∈ [1, 2, 4, 8]) (h : b + n * len < 2 ^ 28) :
    ∀ a ∈ pieces b n len k, a.found (sys t) low id := by
  intro a ha
  obtain ⟨i, hi, rfl⟩ := List.mem_map.1 ha
  have hi' := List.mem_range.1 hi
  have hle : n * i ≤ n * len := Nat.mul_le_mul_left n hi'.le
  have e := step_toNat b n i (by omega)
  refine found_low t _ _ _ _ _ ?_ (by show (BitVec.ofNat 64 b + BitVec.ofNat 64 (n * i)).toNat < _; rw [e]; omega)
  show aligned _ n = true
  unfold aligned
  rw [e]
  simp only [List.mem_cons, List.not_mem_nil, or_false] at hn
  rcases hn with rfl | rfl | rfl | rfl <;> simp <;> omega

theorem pieces_fail (t : Thread) (n len : Nat) (k : Acc1) (hn : n ∈ [1, 2, 4, 8]) (h : n * len < 2 ^ 28) (hl : len ≠ 0) :
    FailsAt (sys t) low id (pieces (2 ^ 52) n len k) 0 (accTrap 4 (BitVec.ofNat 64 (2 ^ 52) + BitVec.ofNat 64 (n * 0)) k) := by
  obtain ⟨m, rfl⟩ : ∃ m, len = m + 1 := ⟨len - 1, by omega⟩
  have e : pieces (2 ^ 52) n (m + 1) k = ⟨0, BitVec.ofNat 64 (2 ^ 52) + BitVec.ofNat 64 (n * 0), n, k, false⟩
      :: (List.range m).map fun i => ⟨0, BitVec.ofNat 64 (2 ^ 52) + BitVec.ofNat 64 (n * (i + 1)), n, k, false⟩ := by
    unfold pieces
    rw [List.range_succ_eq_map]
    simp [List.map_map, Function.comp_def]
  have key : ∀ b ∈ pieces (2 ^ 52) n (m + 1) k, aligned b.va b.bytes = true ∧ 2 ^ 52 ≤ b.va.toNat ∧ 0 ≤ b.elem := by
    intro b hb
    obtain ⟨i, hi, rfl⟩ := List.mem_map.1 hb
    have hi' := List.mem_range.1 hi
    have hle : n * i ≤ n * (m + 1) := Nat.mul_le_mul_left n hi'.le
    have e := step_toNat (2 ^ 52) n i (by omega)
    refine ⟨?_, by show 2 ^ 52 ≤ (BitVec.ofNat 64 (2 ^ 52) + BitVec.ofNat 64 (n * i)).toNat; rw [e]; omega, Nat.zero_le _⟩
    show aligned _ n = true
    unfold aligned
    rw [e]
    simp only [List.mem_cons, List.not_mem_nil, or_false] at hn
    rcases hn with rfl | rfl | rfl | rfl <;> simp <;> omega
  rw [e] at key ⊢
  exact fails_at_zero t _ ⟨0, _, n, k, false⟩ key

theorem witness_PermutationAndReductionResults :
    ((entry .eret 4).vstart.toNat ≤ 4 ∧ 4 ≤ (entry .eret 4).vl.toNat ∧ (7 : Reg).toNat < 8)
    ∧ ((entry .eret 0).vl.toNat = 0 ∧ (entry .eret 4).vl.toNat ≠ 0)
    ∧ (∀ xs ∈ [[0, 3, 2], [5]], ∃ m ∈ xs, (∀ x ∈ xs, toSigned 32 x ≤ toSigned 32 m) ∧ ∃ m ∈ xs, ∀ x ∈ xs, toSigned 32 m ≤ toSigned 32 x) := by
  decide

/-- What the accesses of a vector memory instruction meet: aligned words at 0x5000, the words about 2^52, scale bytes at 0x6000. -/
theorem witness_VectorMemoryEffects :
    (∀ (t : Thread) (kind : Acc1) (log : Bool), t ∈ [regsS, detS] → let e : QEntry := entry .eret 2
      e.fresh ∧ t.vbuf = [] ∧ e.who t = low ∧ e.vstart.toNat ≤ 1 ∧ 1 ≤ e.vl.toNat
      -- elements, an element of c4 with its scale, and segments of two fields
      ∧ (∀ a ∈ [(⟨0, 0x5000, 4, kind, log⟩ : Want), ⟨1, 0x5004, 4, kind, log⟩, ⟨1, 0x5000, 1, kind, log⟩, ⟨1, 0x6000, 1, .read, false⟩],
        a.found (sys t) low id ∧ placeOf id a.va < 2 ^ 53 ∧ ((sys t).partOf t).tileOf a.va = none)
      ∧ FailsAt (sys t) low id [⟨0, 0xFFFFFFFFFFFFC, 4, kind, log⟩, ⟨1, 0x10000000000000, 4, kind, log⟩] 1 (accTrap 4 0x10000000000000 kind)
      ∧ FailsAt (sys t) low id [⟨0, 0x10000000000000, 4, kind, log⟩] 0 (accTrap 4 0x10000000000000 kind))
    ∧ ((0 : BitVec 14) = (entry .eret 2).vstart ∧ (entry .eret 2).vl.toNat ≤ ((entry .eret 2).opnd 3).cap regsS.splitV
      ∧ scaled ⟨.none, 2, false, false, 1, 5, 3⟩ = false ∧ scaled ⟨.scale 9, 2, false, false, 1, 5, 3⟩ = true
      ∧ MFmt.ofCode 13 = .c4 ∧ (∀ j < 2, ∀ k < 2, placeOf id (0x6000 + BitVec.ofNat 64 (j / 32)) ≠ placeOf id (0x5000 + BitVec.ofNat 64 (k / 2)))
      ∧ detS.det = true ∧ detS.comb.length + 2 ≤ 8192 ∧ ∀ q, ((sys detS).mem.read q).toNat = readSelf (sys detS) detS q 1)
    -- spill frames: pieces, and headers that are and are not as they must be
    ∧ ((∀ t kind, (∀ a ∈ pieces 0x5000 4 8 kind, a.found (sys t) low id)
        ∧ FailsAt (sys t) low id (pieces (2 ^ 52) 4 8 kind) 0 (accTrap 4 (BitVec.ofNat 64 (2 ^ 52) + BitVec.ofNat 64 (4 * 0)) kind))
      ∧ aligned (0x5000 : BitVec 64) 32 = true ∧ aligned (0x5001 : BitVec 64) 32 = false
      ∧ (let h (m : Memory) (pos len : Nat) : Nat := m.readN 0x5000 32 / 2 ^ pos % 2 ^ len
        (h [(0x5014, 1)] 176 80 = 0 ∧ h [(0x5014, 1)] 64 64 = 0 ∧ h [(0x5014, 1)] 160 8 = grpOf 0 ∧ h [(0x5014, 1)] 0 64 ≤ vlmax 0 0
          ∧ 3 % grpOf 0 = 0 ∧ 3 + grpOf 0 ≤ nregsOf 0) ∧ h [] 160 8 ≠ grpOf 0)) := by
  refine ⟨fun t kind log ht => ?_, ⟨rfl, by decide, rfl, rfl, rfl, by decide, rfl, by decide, fun q => ?_⟩,
    fun t kind => ⟨pieces_found t _ _ _ kind (by decide) (by decide) (by decide), pieces_fail t _ _ kind (by decide) (by decide) (by decide)⟩,
    by decide, by decide, by decide +kernel⟩
  · have hw : (entry .eret 2).who t = low := by
      simp only [List.mem_cons, List.not_mem_nil, or_false] at ht
      rcases ht with rfl | rfl <;> rfl
    have hp : (sys t).partOf t = bootPart := by
      simp only [List.mem_cons, List.not_mem_nil, or_false] at ht
      rcases ht with rfl | rfl <;> rfl
    have hb : t.vbuf = [] := by
      simp only [List.mem_cons, List.not_mem_nil, or_false] at ht
      rcases ht with rfl | rfl
      all_goals rfl
    refine ⟨⟨rfl, rfl, rfl, rfl⟩, hb, hw, by decide, by decide, fun a ha => ?_, fails_at_one t kind log,
      fails_at_start t kind log⟩
    · rw [hp]
      simp only [List.mem_cons, List.not_mem_nil, or_false] at ha
      rcases ha with rfl | rfl | rfl | rfl <;>
        exact ⟨found_low t _ _ _ _ _ (by decide) (by decide), by simp only; decide, rfl⟩
  · show (Memory.read [] q).toNat = ofBytesLE ((List.range 1).map fun i => combByte (sys detS) [] (q + i))
    simp [combByte, combFind, ofBytesLE, sys, State.reset]

/-- A bank set of two banks, 4 KiB apart, from `base` on, with APEX = 1 and its result at ADDR. -/
def bankImage (base : BitVec 64) (tree : BitVec 64) (addr : BitVec 64) : BitVec 256 := addr ++ tree ++ base ++ 0xC0002#64

theorem witness_PluralAndAtomicEffects :
    (let i := bankImage 0x5000 0x10 0x8000
     (i.extractLsb' 0 12).toNat = 2 ∧ (i.extractLsb' 16 6).toNat = 12 ∧ i.extractLsb' 64 64 = 0x5000 ∧ (i.extractLsb' 128 64).toNat / 16 % 4 = 1
     ∧ i.extractLsb' 192 64 = 0x8000 ∧ ((bankImage 0x5000 0 0).extractLsb' 128 64).toNat / 16 % 4 ≠ 1)
    ∧ ((entry .eret 2).fresh ∧ (entry .eret 2).vstart = 0 ∧ 2 ≤ ((entry .eret 2).opnd 3).cap regsS.splitV ∧ (2 : BitVec 4).toNat < 8
      ∧ (MFmt.ofCode 2).bytes * 8 = ((entry .eret 2).opnd 3).ew ∧ (∃ fm, MFmt.ofCode 9 = .fp fm) ∧ 2 % 2 = 0 ∧ regsS.det = false ∧ regsS.vbuf = []
      ∧ 2 ≤ ({ entry .eret 2 with vstart := 2 } : QEntry).vstart.toNat)
    ∧ (∀ kind, (∀ a ∈ [(⟨0, 0x5000, 4, kind, false⟩ : Want), ⟨0, 0x5004, 4, kind, false⟩, ⟨1, 0x6000, 4, kind, false⟩, ⟨1, 0x6004, 4, kind, false⟩,
          ⟨0, 0x8000, 4, .write, false⟩], a.found (sys regsS) low id ∧ ((sys regsS).partOf regsS).tileOf a.va = none)
      ∧ FailsAt (sys regsS) low id [⟨0, 0xFFFFFFFFFFFFC, 4, kind, false⟩, ⟨1, 0x10000000000000, 4, kind, false⟩] 1 (accTrap 4 0x10000000000000 kind)
      ∧ FailsAt (sys regsS) low id [⟨0, 0x10000000000000, 4, kind, false⟩] 0 (accTrap 4 0x10000000000000 kind)) := by
  refine ⟨by decide, ⟨⟨rfl, rfl, rfl, rfl⟩, rfl, by decide, by decide, rfl, ⟨_, rfl⟩, rfl, rfl, rfl, by decide⟩, fun kind => ⟨fun a ha => ?_,
    fails_at_one _ kind _, fails_at_start _ kind _⟩⟩
  · simp only [List.mem_cons, List.not_mem_nil, or_false] at ha
    rcases ha with rfl | rfl | rfl | rfl | rfl <;> exact ⟨found_low _ _ _ _ _ _ (by decide) (by decide), rfl⟩

/-- The tile of handle 1, whose accumulator (0, 1) is poisoned. -/
def poisonT : Thread := { user with h1 := some { tile := 1, acc := [(1, { Acc.zero with poison := true })] } }

theorem witness_LatticeEffects :
    ((entry .eret 64).fresh ∧ (entry .eret 64).vstart.toNat ≤ 32 ∧ 32 ≤ (entry .eret 64).vl.toNat ∧ 31 + 32 / 32 ≤ 32)
    ∧ (∃ x, poisonT.hnd (1 : Reg).toNat = some x ∧ (x.at 0 1).poison = true ∧ (x.at 0 0).poison = false)
    ∧ (aligned (0x5000 : BitVec 64) 32 = true ∧ aligned (0x5001 : BitVec 64) 32 = false
      ∧ ∀ kind, (∀ a ∈ pieces 0x5000 8 12288 kind, a.found (sys regsS) low id ∧ ((sys regsS).partOf regsS).tileOf a.va = none)
        ∧ FailsAt (sys regsS) low id (pieces (2 ^ 52) 8 12288 kind) 0 (accTrap 4 (BitVec.ofNat 64 (2 ^ 52) + BitVec.ofNat 64 (8 * 0)) kind))
    ∧ ((0 : BitVec 64).toNat < 32 ∧ (entry .eret 32).vl.toNat ≤ 32 ∧ 32 * (31 : BitVec 64).toNat + 32 ≤ 1024)
    -- TLD and TST with gB = 128: one row behind the other
    ∧ (∀ n ∈ [2, 4], aligned (0x5000 : BitVec 64) n = true ∧ aligned (0x5001 : BitVec 64) n = false ∧ aligned (0x80 : BitVec 64) n = true
        ∧ aligned (0x81 : BitVec 64) n = false)
    ∧ (∀ k, (0x5000 : BitVec 64) + BitVec.ofNat 64 (k / 32) * 0x80 + BitVec.ofNat 64 (4 * (k % 32))
        = BitVec.ofNat 64 0x5000 + BitVec.ofNat 64 (4 * k))
    ∧ ∀ kind, (∀ a ∈ pieces 0x5000 4 1024 kind, a.found (sys regsS) low id)
      ∧ FailsAt (sys regsS) low id (pieces (2 ^ 52) 4 1024 kind) 0 (accTrap 4 (BitVec.ofNat 64 (2 ^ 52) + BitVec.ofNat 64 (4 * 0)) kind) := by
  refine ⟨⟨⟨rfl, rfl, rfl, rfl⟩, by decide, by decide, by decide⟩, ⟨_, rfl, by decide, by decide⟩, ⟨by decide, by decide, fun kind => ⟨fun a ha =>
    ⟨pieces_found _ _ _ _ kind (by decide) (by decide) (by decide) a ha, rfl⟩, pieces_fail _ _ _ kind (by decide) (by decide) (by decide)⟩⟩,
    by decide, by decide, fun k => ?_, fun kind => ⟨pieces_found _ _ _ _ kind (by decide) (by decide) (by decide),
    pieces_fail _ _ _ kind (by decide) (by decide) (by decide)⟩⟩
  apply BitVec.eq_of_toNat_eq
  have h1 : (0x80 : BitVec 64).toNat = 128 := rfl
  have h2 : (0x5000 : BitVec 64).toNat = 20480 := rfl
  simp only [BitVec.toNat_add, BitVec.toNat_mul, BitVec.toNat_ofNat, h1, h2]
  omega

/-- A VREPLAY of a chain of two entries, and what the second step comes to. -/
def replayE : QEntry := { entry (.vreplay ⟨.none, 0, false, false, 0, 9, 0⟩) 0 with ga := 2 }
def chainT (rep : Option (BitVec 16 × BitVec 4)) (c : List QEntry) (e : QEntry) : Thread :=
  { queued user e with chain := c, replay := rep }

theorem witness_ChainReplays :
    (let t := chainT none [maskE, maskE] replayE
     (sys t).thread? t.slot = some t ∧ t.vectorRuns = true ∧ t.queue = [] ++ replayE :: [] ∧ (t.queue.map QEntry.seq).Nodup
     ∧ (∀ x ∈ t.queue, x.live = false ∧ x.fault = none) ∧ readyTokp (sys t) t [] t.queue = none ∧ replayE.blks = [] ∧ replayE.qs = []
     ∧ replayE.pages = [] ∧ replayE.strips = [] ∧ replayE.stopAt = none ∧ replayE.late = false ∧ replayE.started = false ∧ t.replay = none
     ∧ mayStart (sys t) t [] replayE = true ∧ replayE.spent (qForm replayE.instr) = false ∧ tokensReady t replayE (qForm replayE.instr) = true
     ∧ replayE.ga.setWidth 16 ≠ (0 : BitVec 16) ∧ ({ replayE with ga := 0x10000 } : QEntry).ga.setWidth 16 = (0 : BitVec 16))
    ∧ (∀ c ∈ [maskE, loadE], let e : QEntry := { replayE with started := true, popped := true }
       let t := chainT (some (2, 1)) [maskE, c] e
       let c1 : QEntry := { c with seq := e.seq, pc := e.pc, vstart := e.vstart, popped := e.subPopped, base := e.base }
       t.replay = some (2, 1) ∧ e.started = true ∧ e.done = false ∧ t.chain[(1 : BitVec 4).toNat]? = some c ∧ unplaced (sys t) t = false
       ∧ convoyOk (sys t) t [] (qForm c.instr) = true ∧ c1.spent (qForm c.instr) = false ∧ tokensReady t c1 (qForm c.instr) = true
       ∧ roomFor t c1 (c1.info t.splitV) = [] ∧ isLat (qForm c.instr) = false)
    ∧ (let e : QEntry := { replayE with started := true, popped := true }
       let run (c : QEntry) : Eff := let t := chainT (some (2, 1)) [maskE, c] e
         effect (sys t) t (opened { c with seq := e.seq, pc := e.pc }) 1
       (∃ s2 v, run maskE = .done s2 v ∧ (v.queue.map QEntry.seq).Nodup ∧ (∃ x ∈ v.queue, x.seq = e.seq ∧ x.instr = e.instr ∧ x.done = false)
         ∧ v.replay = some (2, 1) ∧ v.chain = [maskE, maskE])
       ∧ ∃ s2 v f tr, run loadE = .fault s2 v f tr ∧ v.queue = [e]) := by
  refine ⟨⟨rfl, rfl, rfl, by decide, ?_, rfl, rfl, rfl, rfl, rfl, rfl, rfl, rfl, rfl, rfl, rfl, rfl, by decide, by decide⟩, ?_, ?_, ?_⟩
  · intro x hx
    rw [List.mem_singleton.1 hx]
    exact ⟨rfl, rfl⟩
  · intro c hc
    simp only [List.mem_cons, List.not_mem_nil, or_false] at hc
    rcases hc with rfl | rfl <;> exact ⟨rfl, rfl, rfl, rfl, rfl, rfl, rfl, rfl, rfl, rfl⟩
  · exact ⟨_, _, rfl, by decide, ⟨_, List.mem_singleton.2 rfl, rfl, rfl, rfl⟩, rfl, rfl⟩
  · exact ⟨_, _, _, _, rfl, rfl⟩

def cmdA : ChordCmd := { op := 0, idx := 0, bank := 5, off := 0, seed := 0, frm := 0 }
def runA : ChrunOp :=
  { id := 0, slot := 0, launch := 1, rank := 0, part := 0, sup := false, aspace := 0, ver := 0, seq := 0, obj := none, push := none,
    unplaced := [cmdA], total := 2, fin := false }
def chordS (running : Option ChordCmd) (q : List ChordCmd) : State :=
  { sys user with chords := [{ bank := 5, running := running, queue := q }], chruns := [runA] }
def moveA : Move :=
  { id := 3, slot := 0, launch := 1, rank := 0, part := 0, sup := true, aspace := 0, ver := 0, seed := 0, mode := 0,
    desc := { src := 0x5000, dst := 0x6000, scale := 0, sstrides := [1], dstrides := [1], bounds := [1], ndim := 1, sfmt := 3, dfmt := 3,
              rm := 0, sc := 0, codebook := 0 }
    obj := none, seq := 0, push := none }
def moveS : State := { sys user with moves := [moveA] }
def drainT : Thread := { user with det := true, draining := true, drainNo := 1, comb := [{ word := 0xA00, data := 7, mask := 1 }] }

/-- A move behind which another of its facet comes. -/
def moveB : Move := { moveA with id := 4 }
def movesS : State := { moveS with moves := [moveA, moveB] }
/-- The last run of an execution with a completion object in the unit window has ended. -/
def doneA : ChrunOp := { runA with ended := 2, obj := some 0x40000000, unplaced := [] }
def doneS : State := { sys user with chruns := [doneA] }
/-- A combined word lies on the backing of tile 0 of `tileS`'s window, which is out, with `free` slots, and may be on its way. -/
def backT : Thread := { drainT with comb := [{ word := 0x2000, data := 7, mask := 1 }] }
def backS (free : BitVec 8) (moves : Bool) : State :=
  { tileS 1 free with threads := [backT] }.setPart 0 (if moves then moveP true else tileP)
def fenceT : Thread := { drainT with queue := [{ fenceE with started := true, vstart := 0 }] }

theorem witness_EngineEvents :
    (((chordS none [cmdA, cmdA, cmdA]).chord 5).queue.length < 4 ∧ nextCmd (chordS none [cmdA, cmdA, cmdA]) 5 = some (runA, cmdA)
      ∧ ((chordS none [cmdA]).chord 5).running = none ∧ ((chordS none [cmdA]).chord 5).queue = cmdA :: []
      ∧ ((chordS (some cmdA) []).chord 5).running = some cmdA ∧ (∀ o ∈ (chordS (some cmdA) []).chruns, o.obj = none)
      ∧ (∃ m fl cause, chordPerform (chordS (some cmdA) []) cmdA ((chordS (some cmdA) []).chord 5).part (2 ^ 96) = (m, .error (fl, cause)))
      ∧ (chordS (some cmdA) []).chruns.find? (fun o => o.id == cmdA.op) = some runA ∧ (chordS (some cmdA) []).thread? 0 = some user
      ∧ (user.part, user.launch, user.rank) = (runA.part, runA.launch, runA.rank))
    ∧ ((doneS.chord 5).running = none ∧ doneS.chruns.filter (fun o => o.ended == o.total) = [doneA] ∧ doneA.obj = some 0x40000000
      ∧ locate doneS doneA.who 0x40000000 .write false = (.at (.mem (2 ^ 53)), doneS))
    ∧ (movesS.moves.find? (fun x => x.id == moveB.id) = some moveB ∧ moveB.fin = none
      ∧ (engineMove movesS (moveB.slot / Config.slotsPerFacet)).map (fun x => x.id) ≠ some moveB.id)
    ∧ (moveS.moves.find? (fun x => x.id == moveA.id) = some moveA ∧ moveA.fin = none
      ∧ (engineMove moveS (moveA.slot / Config.slotsPerFacet)).map (fun x => x.id) = some moveA.id
      ∧ moveA.obj = none ∧ moveA.push = none ∧ moveA.pos = 0 ∧ moveA.used = 0
      ∧ moveA.desc.len = 1 ∧ moveA.desc.sfmt = moveA.desc.dfmt ∧ moveA.desc.sfmt < 13 ∧ moveA.desc.sc = 0
      ∧ aligned moveA.desc.src (MFmt.ofCode moveA.desc.sfmt).bytes = true ∧ aligned moveA.desc.dst (MFmt.ofCode moveA.desc.sfmt).bytes = true
      ∧ locate moveS moveA.who moveA.desc.src .read false = (.at (.mem 0x5000), moveS)
      ∧ locate moveS moveA.who moveA.desc.dst .write false = (.at (.mem 0x6000), moveS))
    ∧ ((sys drainT).thread? drainT.slot = some drainT ∧ drainT.draining = true
      ∧ (∃ l, (sys drainT).launchOf drainT = some l ∧ drainReady l drainT.drainNo drainT.rank = true)
      ∧ (drainT.comb.map CombEntry.word).Nodup ∧ drainFence drainT = none
      ∧ ((sys drainT).partOf drainT).combOut (sys drainT).mem drainT.comb = none)
    ∧ ((sys fenceT).thread? fenceT.slot = some fenceT ∧ fenceT.draining = true
      ∧ (∃ l, (sys fenceT).launchOf fenceT = some l ∧ drainReady l fenceT.drainNo fenceT.rank = true)
      ∧ (fenceT.comb.map CombEntry.word).Nodup ∧ ∃ e, drainFence fenceT = some e)
    ∧ ((∀ free moves, let s := backS free moves
          s.thread? backT.slot = some backT ∧ backT.draining = true
          ∧ ∃ l, s.launchOf backT = some l ∧ drainReady l backT.drainNo backT.rank = true)
      ∧ (∀ moves, ((backS 1 moves).partOf backT).combOut (backS 1 moves).mem backT.comb = some (0, tileWin, 0))
      ∧ ((backS 0 false).partOf backT).combOut (backS 0 false).mem backT.comb = some (0, tileWin, 0)
      ∧ ((backS 1 true).partOf backT).transitOf 0 0 ≠ none ∧ ((backS 1 false).partOf backT).transitOf 0 0 = none
      ∧ (startFetch (backS 1 false) 0 0 tileWin 0).isSome = true ∧ startFetch (backS 0 false) 0 0 tileWin 0 = none) := by
  refine ⟨⟨by decide, rfl, rfl, rfl, rfl, ?_, ⟨_, _, _, rfl⟩, rfl, rfl, rfl⟩, ⟨rfl, rfl, rfl, rfl⟩, ⟨rfl, rfl, by decide⟩,
    ⟨rfl, rfl, rfl, rfl, rfl, rfl, rfl, rfl, rfl, by decide, rfl, rfl, rfl, rfl, rfl⟩,
    ⟨rfl, rfl, ⟨_, rfl, rfl⟩, by decide, rfl, rfl⟩, ⟨rfl, rfl, ⟨_, rfl, rfl⟩, by decide, _, rfl⟩, ?_, by decide +kernel, by decide +kernel,
    by decide +kernel, by decide +kernel, by decide +kernel, by decide +kernel⟩
  · intro o ho
    simp only [chordS, List.mem_singleton] at ho
    rw [ho]
    rfl
  · intro free moves
    cases moves <;> exact ⟨rfl, rfl, _, rfl, rfl⟩

/-- Tile 0 comes in, or leaves, `slotA`, where its log is compacted too. -/
def transitS (arriving : Bool) : State :=
  (tileS 1 0).setPart 0 { tileP with transit := [⟨0, 0, arriving, BitVec.ofNat 64 slotA⟩], compacting := [(0, 0)] }
/-- A saved thread whose image lies elsewhere. -/
def savedS (arriving : Bool) : State :=
  { transitS arriving with saved := [{ thread := drainT, image := 0x100000, order := 0 }] }
def waiterT : Thread := { user with queue := [{ entry (.aallocWait ⟨.none, 1, false, 0, 1, 9⟩) 0 with started := true }] }
def waiterS : State := { sys waiterT with facets := [(0, { waiters := [⟨0, 0⟩] })] }
def oldVerS : State := (versS 0 0).setPart 0 { bootPart with oldVers := [7] }
/-- Partition 0 at cycle `c`, its lattices idle or at a rate. -/
def rateS (c : Nat) (idle : Bool) (rate : Rat) (ishape : BitVec 64) : State :=
  { sys user with cyc := c }.setPart 0 { bootPart with idle := idle, rate := rate, ishape := ishape }

theorem witness_TileEvents :
    (0 < 16 ∧ ((savedS true).parts.toList.getD 0 {}).window 0 = some tileWin
      ∧ ((savedS true).parts.toList.getD 0 {}).compacting.contains (0, 0) = true
      ∧ ((savedS true).parts.toList.getD 0 {}).transitOf 0 0 = some ⟨0, 0, true, BitVec.ofNat 64 slotA⟩
      ∧ ((savedS false).parts.toList.getD 0 {}).window 0 = some tileWin
      ∧ ((savedS false).parts.toList.getD 0 {}).transitOf 0 0 = some ⟨0, 0, false, BitVec.ofNat 64 slotA⟩
      ∧ owedIn (savedS false) slotA tileBytes = false
      ∧ ∀ arriving, ∀ v ∈ (savedS arriving).saved, ∀ i, i < v.thread.comb.length → let a := v.image.toNat + 0x60000 + 16 * i + 8
        a + 8 ≤ tileWin.entryAddr 0 ∨ tileWin.entryAddr 0 + 32 ≤ a)
    ∧ (oldVerS.vtab = some 0x8000 ∧ (oldVerS.parts.toList.getD 0 {}).oldVers[0]? = some 7 ∧ versionInUse oldVerS 0 7 = false)
    ∧ (let q (s : State) : Partition := s.parts.toList.getD 0 {}
       (q (rateS 1600 false 1 0)).idle = false ∧ (q (rateS 1600 false 1 0)).lastArray + 800 ≤ (rateS 1600 false 1 0).arithCycle
       ∧ (q (rateS 1601 false 1 0x40000)).rate = 1 ∧ (rateS 1601 false 1 0x40000).arithCycle ≤ (q (rateS 1601 false 1 0x40000)).lastArray + 800
       ∧ fld (q (rateS 0 false 0 0)).ishape.toNat 16 10 = 0 ∧ (q (rateS 0 true 0 0)).idle = true)
    ∧ (waiterS.facet 0).waiters = ⟨0, 0⟩ :: [] ∧ waiterS.thread? 0 = some waiterT ∧ waiterT.unbound = false ∧ freeTiles waiterS 0 = [0, 1]
    ∧ allocEntry waiterT = some ({ entry (.aallocWait ⟨.none, 1, false, 0, 1, 9⟩) 0 with started := true }, ⟨.none, 1, false, 0, 1, 9⟩) := by
  refine ⟨⟨by decide, rfl, rfl, rfl, rfl, rfl, rfl, ?_⟩, ⟨rfl, rfl, rfl⟩, ⟨rfl, by decide, rfl, by decide, by decide +kernel, rfl⟩, rfl, rfl, rfl, rfl, rfl⟩
  intro arriving v hv i hi
  simp only [savedS, List.mem_singleton] at hv
  subst hv
  right
  show 0x6000 + 32 * 0 + 32 ≤ 0x100000 + 0x60000 + 16 * i + 8
  omega

def fabKey : CollKey := ⟨0, 7, 0, 9⟩
def fabPlan : Plan := { handle := 9, part := 0, members := [0, 1], levels := 1, slots := 1, latns := 0, abtns := 0 }
/-- Rank 0 of a group of two, on a loaded plan whose rank 1 is on package 1, in a VCOLL of two elements of type `ty`. -/
def collE (ty : BitVec 3) : QEntry :=
  { entry (.vcoll ⟨.none, ty, 0, 2, false, 0, 2, 3⟩) 2 with started := true, image := mkGroup 0 0 9 0 2 0 7 }
def collT (ty : BitVec 3) : Thread := { user with queue := [collE ty] }
def collC (ty : BitVec 3) : CollAt :=
  { e := collE ty, o := ⟨.none, ty, 0, 2, false, 0, 2, 3⟩, key := fabKey, seq := 0, rank := 0, count := 2,
    cs := collSig (collE ty) ⟨.none, ty, 0, 2, false, 0, 2, 3⟩ }
def chunkOf (r : Nat) (cs : BitVec 32) (d : CollData) : CollChunk := ⟨fabKey, [r], 0, cs, 0, 0, d⟩
def fabS (ty : BitVec 3) (cs : List CollChunk) (apex : List Apex) : State :=
  { sys (collT ty) with plans := [fabPlan], contribs := cs.map fun c => { chunk := c }, apexes := apex }
/-- Both strips are here: two integers each, or two sums of which rank 1's break the table of R425. -/
def goS : State := fabS 0 [chunkOf 0 (collC 0).cs (.raw [5, 6]), chunkOf 1 (collC 0).cs (.raw [7, 8])] []
/-- Rank 1 runs another collective. -/
def mixS : State := fabS 0 [chunkOf 1 ((collC 0).cs + 1) (.raw [7, 8])] []
def poisonS : State := fabS 5 [chunkOf 0 (collC 5).cs (.raw [0, 0]), chunkOf 1 (collC 5).cs (.sums [[], []])] []
def someMsg : Message := ⟨fabKey, 1, 0, 0, 0, 2, 1, [5]⟩
/-- The receiver of `someMsg`: rank 0, from rank 1. -/
def recvT : Thread := { user with f := Vector.replicate 4 (mkStreamReg 0 9 true 0 0 1 0 7) }
def sendA : Send := { slot := 0, launch := 1, rank := 0, seq := 0, order := 4, load := .msg someMsg, here := true, total := 1 }
def sendB : Send := { sendA with total := 2, order := 5 }
/-- The strip of rank 0, for rank 1. -/
def sendC : Send := { sendA with load := .coll (chunkOf 0 (collC 0).cs (.raw [5])), here := false, order := 3 }
def sendS (t : Thread) (x : Send) : State := { sys t with plans := [fabPlan], sends := [x] }
def noticeS (dst : BitVec 32) (n : Nat) : State :=
  { fabS 0 [] [] with fstreams := [{ key := fabKey, src := 1, dst := dst, tag := 0, spent := 2, notices := n }] }

theorem witness_FabricEvents_chunk :
    (chunkOf 1 0 (.raw [5])).ranks ≠ [] ∧ (∀ r ∈ (chunkOf 1 0 (.raw [5])).ranks, memberElsewhere (fabS 0 [] []) fabKey r = true)
      ∧ (fabS 0 [] []).contribs = []
    ∧ ∃ x ∈ (fabS 0 [chunkOf 1 0 (.raw [5])] []).contribs, x.chunk = chunkOf 1 0 (.raw [5]) :=
  ⟨by decide, by decide +kernel, rfl, _, List.mem_singleton.2 rfl, rfl⟩

theorem witness_FabricEvents_report :
    memberRunning (fabS 0 [] []) fabKey 0 1 = none ∧ memberElsewhere (fabS 0 [] []) fabKey 1 = true
      ∧ (apexOf (fabS 0 [] []) fabKey 0).reports = [] ∧ (apexOf (fabS 0 [] []) fabKey 0).decision = none
      ∧ (apexOf (fabS 0 [] [{ key := fabKey, seq := 0, count := 2, decision := some false }]) fabKey 0).decision ≠ none :=
  ⟨rfl, rfl, rfl, rfl, by decide +kernel⟩

theorem witness_FabricEvents_go :
    (goS.thread? 0 = some (collT 0) ∧ collAt (collT 0) = some (collC 0) ∧ checksOf goS (collC 0) = some true
      ∧ decided goS (collC 0) true = true ∧ stillSends goS (collT 0) (collC 0) = false ∧ (collE 0).blks = [] ∧ (collE 0).qs = []
      ∧ (collResult (collChunks goS (collC 0)) (collC 0).o 2 0 2).2.2 = false)
    ∧ (poisonS.thread? 0 = some (collT 5) ∧ collAt (collT 5) = some (collC 5) ∧ checksOf poisonS (collC 5) = some true
      ∧ decided poisonS (collC 5) true = true ∧ stillSends poisonS (collT 5) (collC 5) = false ∧ (collE 5).blks = [] ∧ (collE 5).qs = []
      ∧ (collResult (collChunks poisonS (collC 5)) (collC 5).o 2 0 2).2.2 = true)
    ∧ decided mixS (collC 0) false = true ∧ collAt (collT 0) = some (collC 0) :=
  ⟨⟨rfl, rfl, by decide +kernel, by decide +kernel, rfl, rfl, rfl, by decide +kernel⟩,
    ⟨rfl, rfl, by decide +kernel, by decide +kernel, rfl, rfl, rfl, by decide +kernel⟩, by decide +kernel, rfl⟩

theorem witness_FabricEvents_messages :
    (memberElsewhere (fabS 0 [] []) someMsg.key someMsg.src.toNat = true ∧ (fabS 0 [] []).inbox = []
      ∧ ∀ t ∈ (fabS 0 [] []).threads, runningRecv t someMsg = none)
    ∧ (nextSend (sendS recvT sendA) 0 = some sendA ∧ sendA.sent + 1 = sendA.total ∧ sendA.here = true
      ∧ nextSend (sendS recvT sendB) 0 = some sendB ∧ sendB.sent + 1 ≠ sendB.total
      ∧ nextSend (sendS (collT 0) sendC) 0 = some sendC ∧ sendC.sent + 1 = sendC.total)
    ∧ ((noticeS 0 1).fstreams[0]? = some { key := fabKey, src := 1, dst := 0, tag := 0, spent := 2, notices := 1 }
      ∧ (noticeS 1 0).fstreams[0]? = some { key := fabKey, src := 1, dst := 1, tag := 0, spent := 2, notices := 0 }
      ∧ memberElsewhere (noticeS 1 0) fabKey (1 : BitVec 32).toNat = true)
    ∧ ((∃ q, (some 0 : Option (BitVec 32)) = some q ∧ runsColl (fabS 0 [] []) fabKey q 0 = true)
      ∧ runningFabric (collT 0) = some (collE 0, 9)
      ∧ (planOf (fabS 0 [] []) (collT 0).part 9).abtns ≤ (fabS 0 [] []).time.toNat - (collE 0).began.toNat
      ∧ stepReady (fabS 0 [] []) (collT 0) (collE 0) = false
      ∧ stepReady (fabS 0 [] [{ key := fabKey, seq := 0, count := 2, decision := some false }]) (collT 0) (collE 0) = true) :=
  ⟨⟨rfl, rfl, by decide +kernel⟩, ⟨by decide +kernel, rfl, rfl, by decide +kernel, by decide, by decide +kernel, rfl⟩, ⟨rfl, rfl, rfl⟩,
    ⟨0, rfl, by decide +kernel⟩, rfl, by decide, rfl, by decide +kernel⟩

def freshL : Launch := { someLaunch with id := 2, count := 1, next := 0 }
/-- A partition of cluster 0 with one launch that waits. -/
def placeS : State :=
  { State.reset with parts := State.reset.parts.setIfInBounds 0 { bootPart with clusters := 1, launches := [freshL] } }
def evictT : Thread := { user with evict := true }
def savingT : Thread := { user with run := .saving false }
/-- One thread in a partition with a free image. -/
def saveS (t : Thread) : State := { sys t with mem := imageMem }.setPart 0 imagePart

/-- A saved thread, halted or not, whose image at 0x4000000 has the bytes `m` beside zeros. -/
def savedV (halted : Bool) : SavedThread :=
  { thread := if halted then { user with run := .halted } else user, image := 0x4000000, order := 0 }
def resumeS (halted : Bool) (m : Memory) : State :=
  { State.reset with
    parts := State.reset.parts.setIfInBounds 0 { imagePart with clusters := 1, launches := [someLaunch] }
    saved := [savedV halted], mem := m }
def resumeImage (halted : Bool) (m : Memory) : Option Thread := readImage m 0x4000000 { (savedV halted).thread with slot := 0 }

theorem witness_SchedulerEvents_saved :
    (∀ halted m, (resumeS halted m).recovery = false ∧ ((resumeS halted m).parts.toList.getD 0 {}).valid = true
      ∧ (savedV halted).image.toNat = 0x4000000)
    ∧ (∀ halted, slotChosen (resumeS halted []) ((resumeS halted []).parts.toList.getD 0 {}) 0 = true
      ∧ firstWaiting ((resumeS halted []).parts.toList.getD 0 {}) (waiting (resumeS halted []) 0 ((resumeS halted []).parts.toList.getD 0 {}))
        = some (.saved (savedV halted))
      ∧ ∃ u, resumeImage halted [] = some u ∧ aspaceOk u.aspace = true ∧ u.h0 = none ∧ u.h1 = none)
    ∧ ((savedV false).thread.run ≠ .halted ∧ (savedV false).thread.held = [] ∧ (savedV true).thread.run = .halted)
    ∧ (let f : List Byte := Memory.readBytes [] 0x4000000 0x4000
       frameOk f = true ∧ bitAt (word64 f 0) 13 = false ∧ 0x3000000 + 8 * (imagePart.imageCap.toNat + 1) ≤ 2 ^ 53
       ∧ Memory.readN [] 0x3000000 8 < imagePart.imageCap.toNat)
    -- one chain entry that decodes to nothing, an ASPACE that MTS would refuse, NQ = 65
    ∧ resumeImage false [(0x40041F9, 1)] = none
    ∧ (∃ u, resumeImage false [(0x400404F, 0xF0)] = some u ∧ aspaceOk u.aspace = false)
    ∧ frameOk (Memory.readBytes [(0x4000030, 65)] 0x4000000 0x4000) = false := by
  refine ⟨fun _ _ => ⟨rfl, rfl, rfl⟩, fun h => ⟨?_, ?_, ?_⟩, ⟨by decide, rfl, rfl⟩, ?_, by decide +kernel, ⟨_, rfl, show aspaceOk (imageAspace [(0x400404F, 0xF0)] 0x4000000) = false by decide +kernel⟩,
    by decide +kernel⟩
  · cases h <;> decide +kernel
  · cases h <;> rfl
  · exact ⟨_, rfl, show aspaceOk (imageAspace [] 0x4000000) = true by decide +kernel, rfl, rfl⟩
  · decide +kernel

theorem witness_SchedulerEvents :
    (0 < 16 ∧ placeS.recovery = false ∧ (placeS.parts.toList.getD 0 {}).valid = true
      ∧ slotChosen placeS (placeS.parts.toList.getD 0 {}) 0 = true
      ∧ firstWaiting (placeS.parts.toList.getD 0 {}) (waiting placeS 0 (placeS.parts.toList.getD 0 {})) = some (.fresh freshL))
    ∧ ((saveS evictT).thread? evictT.slot = some evictT ∧ evictT.run.isSaving = false ∧ deferred (saveS evictT) evictT = false
      ∧ evictT.evict = true ∧ evictT.amo = none)
    ∧ ((saveS savingT).thread? savingT.slot = some savingT ∧ savingT.run = .saving false ∧ saveReady (saveS savingT) savingT = true
       ∧ ∃ a m, popImage (saveS savingT) ((saveS savingT).partOf savingT) = some (a, m)) :=
  ⟨⟨by decide, rfl, rfl, by decide +kernel, rfl⟩, ⟨rfl, rfl, by decide +kernel, rfl, rfl⟩, rfl, rfl, rfl,
    ⟨_, _, Option.some_get (by decide +kernel) |>.symm⟩⟩

/-- A VADD that may start, at element 64. -/
def nextT : Thread := queued user { entry (.vaddVv ⟨.none, 2, false, false, 1, 2, 3⟩) 100 with vstart := 64 }

def moveA' : Move := { moveA with obj := some 0x5000 }
def moveFailS : State := { sys user with moves := [moveA'] }

theorem witness_DeviceEvents_errors :
    4095 < Config.facets
    ∧ ((sys user).thread? user.slot = some user ∧ user.active? = true ∧ user.amo = none ∧ AtRest (sys user) user)
    ∧ (∃ e, (sys nextT).thread? nextT.slot = some nextT ∧ nextEntry (sys nextT) nextT = some e ∧ e.live = false
      ∧ (e.inner nextT).vstart.toNat ≤ 95
      ∧ 95 / groupLen (qForm (e.inner nextT).instr) ((e.inner nextT).info nextT.splitV)
          * groupLen (qForm (e.inner nextT).instr) ((e.inner nextT).info nextT.splitV) ≤ (e.inner nextT).vstart.toNat
      ∧ (e.inner nextT).vstart.toNat ≤ 64 ∧ roundLimit (qForm (e.inner nextT).instr) 64 ≤ (e.inner nextT).vstart.toNat)
    ∧ (moveA' ∈ moveFailS.moves ∧ (moveFailS.moves.map Move.id).Nodup ∧ moveA'.fin = none ∧ moveA'.pos < moveA'.desc.len
      ∧ moveA'.obj = some 0x5000 ∧ moveA'.push = none ∧ locate moveFailS moveA'.who 0x5000 .write false = (.at (.mem 0x5000), moveFailS))
    ∧ ((sys tilesT).thread? tilesT.slot = some tilesT ∧ tilesT.hnd 1 = some { tile := 1 })
    ∧ (2 ≤ (2 : BitVec 4).toNat ∧ (10 : BitVec 4).toNat ≤ 10) :=
  ⟨by decide, ⟨rfl, rfl, rfl, ⟨rfl, rfl, rfl, rfl⟩⟩,
    ⟨_, rfl, rfl, rfl, by decide +kernel, by decide +kernel, by decide +kernel, by decide +kernel⟩,
    ⟨List.mem_singleton.2 rfl, by decide, rfl, by decide, rfl, rfl, rfl⟩, ⟨rfl, rfl⟩, by decide⟩

def ptpS (role : PtpRole) (locked : Bool) : State := { sys user with ptp := { role := role }, ptpLocked := locked, ptpEver := locked }
/-- A Sync of an origin, over Ethernet. -/
def syncOf (o : BitVec 64) (locked : Bool) : PtpMessage := ⟨.sync (some o), .ethernet, locked⟩

theorem witness_DeviceEvents_package :
    ({ sys user with recovery := true } : State).recovery = true ∧ (sys user).recovery = false
    ∧ hostReaches (sys user) (2 ^ 40 + 2 ^ 34 - 2) 2 = true
    ∧ ({ sys user with memcap := Vector.replicate 4 1 } : State).memcap.toList.getD (3 : BitVec 2).toNat 0 ≠ 0
    ∧ (ptpS .receiver true).ptpLocked = true ∧ (⟨.delayReq, .udp4, true⟩ : PtpMessage).transport ≠ (sys user).ptp.transport
    ∧ (ptpS .transmitter false).ptp.role = .transmitter ∧ (ptpS .receiver false).ptp.role = .receiver :=
  ⟨rfl, rfl, by decide +kernel, by decide +kernel, rfl, by decide, rfl, rfl⟩

/-- A Sync is met without lock, at the first lock, and, while the port is locked, past 1 ms and within it. -/
theorem witness_DeviceEvents_sync :
    (∀ o l, (syncOf o l).transport = (ptpS .receiver l).ptp.transport ∧ (syncOf o l).body = .sync (some o))
    ∧ (ptpS .receiver true).ptpEver = true ∧ (ptpS .receiver false).ptpEver = false
    ∧ ((ptpS .receiver true).time.toNat : Int) - ((1000001 : BitVec 64).toNat : Int) - (ptpS .receiver true).ptp.pathDelay < -1000000
    ∧ ¬ ((ptpS .receiver true).time.toNat : Int) - ((1000000 : BitVec 64).toNat : Int) - (ptpS .receiver true).ptp.pathDelay < -1000000
    ∧ ((ptpS .receiver false).time.toNat : Int) - ((1 : BitVec 64).toNat : Int) - (ptpS .receiver false).ptp.pathDelay < 0
    ∧ (∃ u, exec (.ptpMessage (syncOf 1 false)) (ptpS .receiver false) = .next u ∧ u.ptpLocked = false)
    ∧ (∃ u, exec (.ptpMessage (syncOf 1 true)) (ptpS .receiver false) = .next u ∧ u.ptpLocked = true) :=
  ⟨fun _ _ => ⟨rfl, rfl⟩, rfl, rfl, by decide, by decide, by decide, ⟨_, rfl, rfl⟩, ⟨_, rfl, rfl⟩⟩
/-! ### Management -/

theorem rangeReaches_low (s : State) (h : s.hdmbase = 0) {a n : Nat} (hn : a + n ≤ 2 ^ 40) : rangeReaches s a n = true := by
  unfold rangeReaches
  rw [List.all_eq_true]
  intro i hi
  exact reaches_low s h (by have := List.mem_range.1 hi; omega)

/-- A command that waits on the management port. -/
def cmdRec (op : BitVec 32) (a0 a1 a2 : BitVec 64) (clean : Bool) : Channel := .management ⟨5, op, a0, a1, a2, clean⟩
def mgmt (s : State) : State := { s with mgmtSession := true }

theorem pending (s : State) (op : BitVec 32) (a0 a1 a2 : BitVec 64) (clean : Bool) :
    pendingCmd (mgmt s) (cmdRec op a0 a1 a2 clean) = some ⟨5, op.toNat, a0, a1, a2, clean⟩ := rfl

theorem witness_RegisterCommands :
    (∀ s op a0 a1 a2 clean, pendingCmd (mgmt s) (cmdRec op a0 a1 a2 clean) = some ⟨5, op.toNat, a0, a1, a2, clean⟩)
    ∧ pendingCmd { sys user with mem := [(0xFFFFFF0000, 1), (0xFFFFFF0008, 1)] } .host = some ⟨1, 1, 0, 0, 0, true⟩
    ∧ pendingCmd { sys user with mem := [(0xFFFFFF4000, 1), (0xFFFFFF4008, 15)] } .supervisor = some ⟨1, 15, 0, 0, 0, true⟩
    ∧ (∀ (s : State) op a0 a1 a2 clean, pendingCmd (mgmt { s with recovery := true }) (cmdRec op a0 a1 a2 clean) = some ⟨5, op.toNat, a0, a1, a2, clean⟩)
    ∧ ({ sys user with recovery := true } : State).recovery = true ∧ (sys user).recovery = false
    ∧ 50 ≤ (50 : BitVec 64).toNat ∧ (4000 : BitVec 64).toNat ≤ 4000 ∧ (49 : BitVec 64).toNat < 50 ∧ 4000 < (4001 : BitVec 64).toNat
    ∧ (65535 : BitVec 64).toNat < 65536 ∧ 65536 ≤ (65536 : BitVec 64).toNat ∧ (sys user).plans = [] ∧ (fabS 0 [] []).plans ≠ []
    ∧ (4095 : BitVec 64).toNat < 4096 ∧ (3 : BitVec 64).toNat < 4 ∧ 64 ≤ (64 : BitVec 64).toNat
    ∧ ((sys user).parts.toList.getD 0 {}).valid = true ∧ ((sys user).parts.toList.getD 15 {}).valid = false :=
  ⟨fun _ _ _ _ _ _ => rfl, by decide +kernel, by decide +kernel, fun _ _ _ _ _ _ => rfl, rfl, rfl, by decide, by decide, by decide, by decide, by decide, by decide,
    rfl, by decide, by decide, by decide, by decide, rfl, rfl⟩

def partMem : Memory :=
  [(0x5000, 1), (0x5008, 1), (0x502C, 1), (0x506D, 1), (0x5108, 16), (0x5112, 0x40)]
def idlePart : Partition := { bootPart with launches := [] }
def objS (p : Partition) (m : Memory) : State := { State.reset with mem := m, parts := State.reset.parts.setIfInBounds 0 p, mgmtSession := true }
def planMem : Memory := [(0x5004, 1), (0x5005, 1)]
def haltedT : Thread := { user with run := .halted }

theorem witness_ObjectCommands_command :
    (∀ s op a0 a1 a2, pendingCmd (mgmt s) (cmdRec op a0 a1 a2 true) = some ⟨5, op.toNat, a0, a1, a2, true⟩)
    ∧ ∀ p m, (objS p m).recovery = false ∧ ∀ a n, a + n ≤ 2 ^ 40 → rangeReaches (objS p m) a n = true :=
  ⟨fun _ _ _ _ _ => rfl, fun _ _ => ⟨rfl, fun _ _ h => rangeReaches_low _ rfl h⟩⟩

theorem witness_ObjectCommands_partset_removes :
    (readPartDesc (objS idlePart []).mem 0x5000).first = 0 ∧ (readPartDesc (objS idlePart []).mem 0x5000).rest = true
    ∧ idlePart.launches = [] ∧ bootPart.launches ≠ [] := ⟨by decide +kernel, by decide +kernel, rfl, by decide⟩

theorem witness_ObjectCommands_partset_sound :
    (readPartDesc (objS idlePart partMem).mem 0x5000).first = 1
    ∧ (readPartDesc (objS idlePart partMem).mem 0x5000).sound (objS idlePart partMem) = true := ⟨by decide +kernel, by decide +kernel⟩

theorem witness_ObjectCommands_partset_free :
    (readPartDesc (objS idlePart partMem).mem 0x5000).conflicts (objS idlePart partMem) 0 idlePart = false := by decide +kernel

theorem witness_ObjectCommands_partset_busy :
    (readPartDesc (objS bootPart partMem).mem 0x5000).sound (objS bootPart partMem) = true := by decide +kernel

theorem witness_ObjectCommands_table :
    inDieBanks (objS idlePart []) (2 ^ 40) tableSize = true ∧ tableBad (objS idlePart []) (2 ^ 40) = false ∧ (objS idlePart []).vtab = none
    ∧ tableConflicts (objS idlePart []) (2 ^ 40) = false := ⟨by decide +kernel, by decide +kernel, rfl, by decide +kernel⟩

theorem witness_ObjectCommands_table_removed :
    ({ objS idlePart [] with vtab := some (2 ^ 40 : BitVec 64) } : State).vtab ≠ none
    ∧ ∀ p ∈ ({ objS idlePart [] with vtab := some (2 ^ 40 : BitVec 64) } : State).parts.toList, p.launches = [] :=
  ⟨nofun, by decide +kernel⟩

theorem witness_ObjectCommands_plan :
    (∃ p, readPlan (objS idlePart planMem) 0 0x5000 = some p) ∧ idlePart.valid = true ∧ (objS idlePart planMem).plans.length < 2 ^ 31
    ∧ (Config.hopsHaveSlots 0 = true ∨ Config.hopsHaveSlots 0 = false)
    ∧ (∃ p ∈ [fabPlan], p.part = 0 ∧ p.handle = 9) ∧ planBusy { sys user with plans := [fabPlan] } 0 9 = false
    ∧ ∀ p ∈ [fabPlan], p.part ≠ 0 ∨ p.handle ≠ 8 :=
  ⟨Option.isSome_iff_exists.1 (by decide +kernel), rfl, by decide, by cases Config.hopsHaveSlots 0 <;> simp,
    ⟨fabPlan, by simp, rfl, rfl⟩, rfl, by simp [fabPlan]⟩

/-- Whether an image is accepted hangs on its signature, a free value: each image meets one of the two clauses. -/
theorem witness_ObjectCommands_image : ∀ img, imageAccepted (objS idlePart []) img = true ∨ imageAccepted (objS idlePart []) img = false :=
  fun img => by cases imageAccepted (objS idlePart []) img <;> simp

def launchS : State := objS idlePart [(0x5010, 1)]
def launchBytes : List Byte := List.replicate 16 0 ++ [1] ++ List.replicate 15 0

theorem witness_ObjectCommands_launch_bytes : launchS.mem.readBytes 0x5000 32 = launchBytes := by decide +kernel

theorem witness_ObjectCommands_launch :
    aspaceOk 0 = true ∧ (parseLaunch launchBytes).partOk launchS = true ∧ (parseLaunch launchBytes).queueFull launchS = false
    ∧ (parseLaunch launchBytes).sound = true ∧ (parseLaunch launchBytes).tableFull launchS = false :=
  ⟨rfl, by decide +kernel, by decide +kernel, by decide +kernel, by decide +kernel⟩

/-- The image at 0x10000 names an ASPACE that MTS would refuse. -/
def badImage : State := { sys haltedT with mem := [(0x14040, 4), (0x1404F, 0x10)] }
/-- The image at 0x10000 has WSHARE 4 and zeros. -/
def goodImage : State := { sys haltedT with mem := [(0x14040, 4)] }

theorem imageArg_low (s : State) (h : s.hdmbase = 0) : imageArg s 0x10000 = true := by
  unfold imageArg
  rw [rangeReaches_low s h (by decide)]
  decide

theorem witness_ObjectCommands_debug :
    (sys haltedT).thread? 0 = some haltedT ∧ haltedT.run = .halted ∧ imageArg (sys haltedT) 0x10000 = true
    ∧ imageArg (sys haltedT) 0x10001 = false ∧ (∀ t, (sys user).thread? 0 = some t → t.run ≠ .halted)
    ∧ goodImage.thread? 0 = some haltedT ∧ imageSound goodImage 0x10000 = true ∧ imageSound badImage 0x10000 = false := by
  refine ⟨rfl, rfl, imageArg_low _ rfl, ?_, ?_, rfl, by decide +kernel, by decide +kernel⟩
  · unfold imageArg
    simp
  · intro t h
    have : t = user := by simpa [sys, State.thread?, user] using h.symm
    rw [this]
    decide

/-- The frame block of slot 0 holds a nest whose body lies in a tile that is arriving. -/
def arriveS : State :=
  { sys haltedT with mem := [(0x6002, 1), (0x6015, 1), (0x601A, 1), (0x2010001, 0x22), (0x2010040, 2), (0x2010074, 1), (0x201007A, 1)] }.setPart 0
    (moveP true)

theorem witness_ObjectCommands_resume :
    (resume (sys haltedT) haltedT ((sys haltedT).mem.readBytes ((sys haltedT).frameBase haltedT) 0x4000) false).isSome = true
    ∧ arriveS.thread? 0 = some haltedT
    ∧ resume arriveS haltedT (arriveS.mem.readBytes (arriveS.frameBase haltedT) 0x4000) false = none :=
  ⟨by decide +kernel, rfl, Option.isNone_iff_eq_none.1 (by decide +kernel)⟩

/-- Another thread holds both tiles of the facet, and the image needs one. -/
def noTiles : State := { sys haltedT with threads := [haltedT, { tilesT with slot := 1 }], mem := [(0x14040, 4), (0x14200, 1)] }

theorem witness_ObjectCommands_restore :
    (restoreHalted goodImage haltedT 0x10000).isSome = true
    ∧ noTiles.thread? 0 = some haltedT ∧ imageSound noTiles 0x10000 = true ∧ restoreHalted noTiles haltedT 0x10000 = none :=
  ⟨by decide +kernel, rfl, by decide +kernel, Option.isNone_iff_eq_none.1 (by decide +kernel)⟩

theorem witness_SpdmResponses : SpdmPort.doe = .doe ∧ SpdmPort.management = .management := ⟨rfl, rfl⟩

/-! ### Steps, reset and decoding -/

def eventS : State := { sys user with agenda := [.event (.lmaxExpiry 5)] }
def turnS (t : Thread) (m : Memory) : State := { sys t with agenda := [.issue 0], mem := m }
def loopT : Thread := { sup with nest := some (nestOf [0, 0] 1) }
def blockT : Thread := { sup with run := .blocked .isync }
def heldT : Thread := { sup with cbuf := [(0x5000, [7]), (0x5001, [8])], vbuf := [⟨0, 0x6000, [9]⟩] }
def storeS : State := { sys heldT with agenda := [.performStore 0 1] }
def vstoreS : State := { sys heldT with agenda := [.performV 0 0] }
/-- A thread that waits for its drain; and for one that may not begin yet. -/
def waitT (n : Nat) : Thread := { drainT with drainNo := n, run := .blocked .isync }
def waitS (n : Nat) : State := { sys (waitT n) with agenda := [.event (.combineDrain 0)] }
def wakeS : State := { sys blockT with agenda := [.event (.isyncComplete 0)] }
/-- The turn of slot 0, where slot 1 comes first in rotation. -/
def laterS : State :=
  { turnS sup [] with threads := [sup, { sup with slot := 1 }] }.setFacet 0 { lastIssue := 0 }

theorem storeS_there (c : Nat) : (turnBase (stampReady storeS (advance storeS c))).thread? 0 = some heldT := by
  unfold advance
  split <;> rfl

theorem vstoreS_there (c : Nat) : (turnBase (stampReady vstoreS (advance vstoreS c))).thread? 0 = some heldT := by
  unfold advance
  split <;> rfl

theorem waitS_there (n c : Nat) : (turnBase (stampReady (waitS n) (advance (waitS n) c))).thread? 0 = some (waitT n) := by
  unfold advance
  split <;> rfl

theorem waitS_ends (c : Nat) :
    ∃ u v, exec (.combineDrain 0) (turnBase (stampReady (waitS 1) (advance (waitS 1) c))) = .next u ∧ u.thread? 0 = some v ∧ v.draining = false
      ∧ v.run = .blocked .isync ∧ ∃ y, exec .isync { u with cur := 0 } = .next y := by
  unfold advance
  split <;> exact ⟨_, _, rfl, rfl, rfl, rfl, _, rfl⟩

theorem waitS_waits (c : Nat) :
    ∃ u v, exec (.combineDrain 0) (turnBase (stampReady (waitS 5) (advance (waitS 5) c))) = .next u ∧ u.thread? 0 = some v ∧ v.draining = true := by
  unfold advance
  split <;> exact ⟨_, _, rfl, rfl, rfl⟩

theorem witness_StepRunsInstruction_drain :
    (∀ n, (waitS n).torn = none ∧ turnOf (waitS n) = .event (.combineDrain 0) ∧ (eventTime (waitS n)).thread? 0 = some (waitT n)
      ∧ (waitT n).draining = true ∧ drainFence (waitT n) = none)
    ∧ (∃ u v, exec (.combineDrain 0) (eventTime (waitS 1)) = .next u ∧ u.thread? 0 = some v ∧ v.draining = false ∧ v.run = .blocked .isync
      ∧ ∃ y, exec .isync { u with cur := 0 } = .next y)
    ∧ ∃ u v, exec (.combineDrain 0) (eventTime (waitS 5)) = .next u ∧ u.thread? 0 = some v ∧ v.draining = true :=
  ⟨fun n => ⟨rfl, rfl, waitS_there n _, rfl, rfl⟩, waitS_ends _, waitS_waits _⟩

theorem witness_StepRunsInstruction_event :
    (turnOf eventS = .event (.lmaxExpiry 5) ∧ isEvent (.lmaxExpiry 5) = true ∧ wakeSlot (.lmaxExpiry 5) = none
      ∧ (∃ u, exec (.lmaxExpiry 5) (eventTime eventS) = .next u) ∧ eventS.agenda.head? = some (.event (.lmaxExpiry 5)))
    ∧ (storeS.torn = none ∧ turnOf storeS = .performStore 0 1 ∧ (eventTime storeS).thread? 0 = some heldT ∧ heldT.cbuf[1]? = some (0x5001, [8])
      ∧ ∀ x ∈ heldT.cbuf.take 1, overlap x.1 x.2.length 0x5001 [(8 : Byte)].length = false)
    ∧ (turnOf vstoreS = .performV 0 0 ∧ (eventTime vstoreS).thread? 0 = some heldT ∧ heldT.vbuf[0]? = some ⟨0, 0x6000, [9]⟩)
    ∧ (turnOf wakeS = .event (.isyncComplete 0) ∧ wakeSlot (.isyncComplete 0) = some 0 ∧ MayServe wakeS blockT
      ∧ ∃ u, exec (.isyncComplete 0) (advance (turnBase wakeS) (issueCycle wakeS blockT)) = .next u) :=
  ⟨⟨rfl, rfl, rfl, ⟨_, rfl⟩, rfl⟩, ⟨rfl, rfl, storeS_there _, rfl, by decide⟩, ⟨rfl, vstoreS_there _, rfl⟩, rfl, rfl, ⟨rfl, rfl, rfl, by decide +kernel⟩, _, rfl⟩

theorem witness_StepRunsInstruction_turn :
    (turnOf laterS = .issue 0 ∧ laterS.thread? 0 = some sup ∧ mayIssue (turnBase laterS) sup (issueCycle laterS sup) = false)
    ∧ (turnOf (turnS blockT []) = .issue 0 ∧ MayServe (turnS blockT []) blockT ∧ blockT.run = .blocked .isync)
    ∧ (turnOf (turnS loopT []) = .issue 0 ∧ MayServe (turnS loopT []) loopT ∧ loopT.run = .ready ∧ loopT.nest = some (nestOf [0, 0] 1)
      ∧ ∃ u, loopT.enterIter = some u ∧ (nestOf [0, 0] 1).body[(nestOf [0, 0] 1).pos]? = some (.cHint 0)
        ∧ ∃ v, exec (.cHint 0) ((served (turnS loopT []) loopT).setThread u) = .next v) :=
  ⟨⟨rfl, rfl, by decide +kernel⟩, ⟨rfl, ⟨rfl, rfl, rfl, by decide +kernel⟩, rfl⟩, rfl, ⟨rfl, rfl, rfl, by decide +kernel⟩, rfl, rfl,
    _, rfl, rfl, _, rfl⟩

def fetchB (m : Memory) : State := served (turnS sup m) sup

/-- A C parcel, four bytes and nothing that decodes stand at the pc; and an odd pc. -/
theorem witness_StepRunsInstruction_fetch :
    (∀ m, turnOf (turnS sup m) = .issue 0) ∧ sup.run = .ready ∧ sup.nest = none ∧ sup.pc.getLsbD 0 = false
    ∧ (∀ m ∈ [[], [(0x1000, 4)], [(0x1000, 0x7D)]], mayIssue (turnBase (turnS sup m)) sup (issueCycle (turnS sup m) sup) = true
      ∧ (turnS sup m).thread? 0 = some sup ∧ sup.active? = true ∧ sup.awaitsTile = false)
    ∧ fetchWord (sup.who (fetchB [(0x1000, 4)])) sup.pc (fetchB [(0x1000, 4)]) = .ok 4 (fetchB [(0x1000, 4)]) ∧ decode 4 = some (.cHint 0)
    ∧ fetchWord (sup.who (fetchB [])) sup.pc (fetchB []) = .ok 0 (fetchB []) ∧ decode 0 = none ∧ canStop (fetchB []) sup = true
    ∧ (let t : Thread := { regsS with pc := 0x1001 }
       turnOf oddS = .issue 0 ∧ MayServe oddS t ∧ t.pc.getLsbD 0 = true ∧ canStop (served oddS t) t = true)
    ∧ (turnS sup [(0x1000, 0x7D)]).code = [] ∧ lengthOf ((fetchB [(0x1000, 0x7D)]).mem.readN 0x1000 2) / 2 = 2
    ∧ locate (fetchB [(0x1000, 0x7D)]) (sup.who (fetchB [(0x1000, 0x7D)])) sup.pc .fetch false = (.at (.mem 0x1000), fetchB [(0x1000, 0x7D)])
    ∧ locate (fetchB [(0x1000, 0x7D)]) (sup.who (fetchB [(0x1000, 0x7D)])) (sup.pc + 2) .fetch false
      = (.at (.mem 0x1002), fetchB [(0x1000, 0x7D)])
    ∧ ∃ i, decode (0x7D + 0 * 2 ^ 16) = some i :=
  ⟨fun _ => rfl, rfl, rfl, rfl, by decide +kernel, rfl, by decide +kernel, rfl, by decide +kernel, rfl,
    ⟨rfl, ⟨rfl, rfl, rfl, by decide +kernel⟩, rfl, rfl⟩, rfl, by decide +kernel, rfl, rfl, Option.isSome_iff_exists.1 (by decide +kernel)⟩

theorem witness_DecodeInvertsEncode :
    (∃ c, encode (.vld ⟨.scale 9, 11, true, true, 0, 6, 5⟩) = some c) ∧ (Instr.vld ⟨.scale 9, 11, true, true, 0, 6, 5⟩).wellFormed = true
      ∧ decode 0x10000061 = some (.trap 0) :=
  ⟨Option.isSome_iff_exists.1 (by decide +kernel), rfl, by decide +kernel⟩

theorem witness_StepsKeepMemoryForm : MemOk eventS ∧ ∃ u, step eventS = .next u := ⟨rfl, _, rfl⟩


/-! ### Single steps, from the spec's tables and worked examples -/

/-- A register after one instruction. -/
def regAfter (o : Out) (r : Reg) : Option (BitVec 64) :=
  match o with
  | .next s => s.threads.head?.map fun t => t.rd r
  | .fault _ => none
  | .refused _ => none
def flagsAfter (o : Out) : Option (BitVec 6) :=
  match o with
  | .next s => s.threads.head?.map fun t => t.fflags
  | .fault _ => none
  | .refused _ => none

/-- g5 = 4, g7 = 14, g9 = 49152, g10 and g11 two floats, g12 = −2^63, g13 = −1. -/
def smallT : Thread :=
  vals user [(5, 4), (7, 14), (9, 0xC000), (10, 0x4CBEBC20), (11, 0x3F800000), (12, 0x8000000000000000), (13, 0xFFFFFFFFFFFFFFFF)]
def run (i : Instr) : Out := exec i (sys smallT)

/-- The worked example of spec/05_general_registers.md: 14 rem 4, the unsigned division by zero, 49152 − 1, 3 << 14. -/
theorem test_example_rem : regAfter (run (.rem 5 7 11)) 11 = some 2 := by decide +kernel
theorem test_example_divw : regAfter (run (.divw 0 9 10)) 10 = some 0xFFFFFFFFFFFFFFFF := by decide +kernel
theorem test_example_addi : regAfter (run (.addi none 0x3FFF 9 9)) 9 = some 0xBFFF := by decide +kernel
theorem test_example_lui : regAfter (run (.lui none 3 9)) 9 = some 0xC000 := by decide +kernel
/-- A sum that wraps, and the upper half of −1 × −1. -/
theorem test_add_wraps : regAfter (run (.add 12 12 8)) 8 = some 0 := by decide +kernel
theorem test_mulh_signed : regAfter (run (.mulh 13 13 8)) 8 = some 0 := by decide +kernel
theorem test_mulhw_unsigned : regAfter (run (.mulhw 13 13 8)) 8 = some 0xFFFFFFFFFFFFFFFE := by decide +kernel
/-- R121: the most negative value divided by −1. -/
theorem test_div_overflow : regAfter (run (.div 13 12 8)) 8 = some 0x8000000000000000 := by decide +kernel
/-- A write of g0 is discarded. -/
theorem test_zero_register : regAfter (run (.add 5 5 0)) 0 = some 0 := by decide +kernel
/-- The worked example of spec/04_number_formats.md: 1e8 + 1 rounds to 1e8 in f32 and is inexact. -/
theorem test_example_fadd :
    regAfter (run (.fadd 0 11 10 8)) 8 = some 0x4CBEBC20 ∧ flagsAfter (run (.fadd 0 11 10 8)) = some 1 := by decide +kernel
/-- The worked example of spec/07_vector_register_storage.md: 49152 elements asked for of 2048 (VTYPE 5). -/
theorem test_example_vcfgi : regAfter (run (.vcfgi none 5 9 7)) 7 = some 2048 := by decide +kernel

/-- The worked example after R110: the image of 1e8, the exact sum of 1e8, 1 and −1e8, and the image of −1. -/
def acc1e8 : Acc := Acc.zero.addVal (decodeF .f32 0x4CBEBC20) false
theorem test_example_image :
    ((acc1e8.image.drop 40).take 4) = [0x00, 0xE1, 0xF5, 0x05] ∧ acc1e8.status = 0 := by decide +kernel
theorem test_example_exact_sum :
    ((acc1e8.addVal (decodeF .f32 0x3F800000) false).addVal (decodeF .f32 0xCCBEBC20) false).extract .f32 .rne 0 = ⟨0x3F800000, 0⟩ := by
  decide +kernel
theorem test_example_minus_one :
    (Acc.zero.addVal (decodeF .f32 0xBF800000) false).image.take 80 = List.replicate 40 0 ++ List.replicate 40 0xFF := by decide +kernel
/-- R110: an image whose OVF disagrees with its WRAP is poisoned, and its OVF stays as read until an addition. -/
theorem test_inconsistent_image :
    (Acc.ofImage (bytesLE 80 0 ++ bytesLE 8 8 ++ bytesLE 8 0)).status = 0x18
      ∧ ((Acc.ofImage (bytesLE 80 0 ++ bytesLE 8 8 ++ bytesLE 8 0)).addVal (decodeF .f32 0) false).status = 0x10 := by decide +kernel
/-- The worked example after R111: 1 + 2^−8 is a tie in bf16 and 1 + 2^−7 is exact. -/
theorem test_example_ties :
    roundTo (decodeF .f32 0x3F808000) .bf16 .rne 0 = ⟨0x3F80, 1⟩ ∧ roundTo (decodeF .f32 0x3F810000) .bf16 .rne 0 = ⟨0x3F81, 0⟩ := by
  decide +kernel

end
end Sys2Proof.Tests
end

section
/-! PROOFS. The hints of R75: which words and parcels they are, and that they only move their thread on. -/

namespace Sys2Proof.Machine
open Sys2Proof

noncomputable section

/-! ### Hints are executed on the control side -/

/-- An instruction that names no register pops nothing from a queue register. -/
theorem Thread.issued_nil (t : Thread) : t.issued [] = { t with run := .ready } := rfl

/-- An instruction without operands and effect, once it issues, only moves its thread on. -/
theorem issue_done_runs {s : State} {t : Thread} (h : Issues s t [] []) (i : Instr) :
    issue i [] [] s (fun _ u => done s u i) = .next (retired s { t with run := .ready } i) := by
  rw [issue_runs h, done_eq, Thread.issued_nil]

/-! ### The bits of a hint -/

/-- Decoding is reading the fields and then the checks of R76. -/
theorem decode_eq_some_iff {w : Nat} {i : Instr} : decode w = some i ↔ decodeFields w = some i ∧ i.wellFormed = true := by
  unfold decode
  split
  next j hj =>
    rw [hj, Option.ite_none_right_eq_some, Option.some_inj]
    constructor
    · rintro ⟨hwf, rfl⟩
      exact ⟨rfl, hwf⟩
    · rintro ⟨rfl, hwf⟩
      exact ⟨hwf, rfl⟩
  next hj => simp [hj]

/-- A base word of major 0x1F, with no word before it. -/
theorem decodeBase_hint {w : Nat} (h : fld w 2 6 = 31) : decodeBase .none none w = some (.hint (bvf w 8 24)) := by
  simp [decodeBase, h, decodeMajor1F]

theorem decode_hint {w : Nat} (hw : w < 2 ^ 32) (h : w % 256 = 0x7D) :
    decode w = some (.hint (BitVec.ofNat 24 (w / 256))) := by
  have hlen : lengthOf w = 4 := if_pos (by simp only [fld]; omega)
  have hword : fld w 0 32 = w := by simp only [fld]; omega
  have hmajor : fld w 2 6 = 31 := by simp only [fld]; omega
  have hrest : fld w 8 24 = w / 256 := by simp only [fld]; omega
  refine decode_eq_some_iff.2 ⟨?_, rfl⟩
  rw [decodeFields, if_neg (by omega), if_pos hlen, hword, decodeBase_hint hmajor, bvf, hrest]

theorem decode_cHint {w : Nat} (hw : w < 2 ^ 16) (h : w % 2 ^ 11 = 4) :
    decode w = some (.cHint (BitVec.ofNat 5 (w / 2 ^ 11))) := by
  have hlow : fld w 0 2 = 0 := by simp only [fld]; omega
  have hlen : lengthOf w = 2 := by simp [lengthOf, hlow]
  have hparcel : fld w 0 16 = w := by simp only [fld]; omega
  have hop : fld w 0 6 = 4 ∧ fld w 6 5 = 0 := by simp only [fld]; omega
  have hrest : fld w 11 5 = w / 2 ^ 11 := by simp only [fld]; omega
  refine decode_eq_some_iff.2 ⟨?_, rfl⟩
  rw [decodeFields, if_pos hlen, hparcel, decodeCompact, if_pos hop, bvf, hrest]

/-! ### No word stands before a hint -/

/-- Is the instruction a hint of major 0x1F? -/
def isHint : Instr → Bool
  | .hint _ => true
  | _ => false

/-- A decoding that gives no hint of major 0x1F. -/
def HintFree (o : Option Instr) : Prop := o.any isHint = false

theorem hintFree_ite {c : Prop} [Decidable c] {a b : Option Instr} (ha : HintFree a) (hb : HintFree b) :
    HintFree (if c then a else b) := by
  split
  · exact ha
  · exact hb

theorem not_hintFree_hint (x : BitVec 24) : ¬ HintFree (some (.hint x)) := Bool.noConfusion

/-- No form of a 16-bit parcel is a hint of major 0x1F: each branch of the table ends in another instruction or in none. -/
theorem decodeCompact_hintFree (w : Nat) : HintFree (decodeCompact w) := by
  unfold decodeCompact
  repeat' refine hintFree_ite ?_ ?_
  all_goals rfl

/-- No form of another major is a hint of major 0x1F, whatever word stands before it. -/
theorem decodeBase_hintFree_of_major {w : Nat} (h : fld w 2 6 ≠ 31) (p : Pre) (x : Ext) : HintFree (decodeBase p x w) := by
  unfold decodeBase
  rw [if_neg h]
  -- `refine` unfolds each major's table where a branch names it
  repeat' refine hintFree_ite ?_ ?_
  all_goals rfl

/-- Major 0x1F takes no word before it, EXT or other (R59, R68). -/
theorem decodeBase_hintFree_of_preceded {p : Pre} {x : Ext} (h : p ≠ .none ∨ x.isSome) (w : Nat) :
    HintFree (decodeBase p x w) := by
  by_cases hm : fld w 2 6 = 31
  · simp [decodeBase, hm, h, HintFree]
  · exact decodeBase_hintFree_of_major hm p x

theorem decodePre_ne_none (w : Nat) : decodePre w ≠ some .none := by
  unfold decodePre
  split_ifs <;> simp

/-- An instruction of 2 or 8 bytes (R47) is no hint of major 0x1F: of 8 bytes, a word stands before its base word. -/
theorem decodeFields_hintFree {w : Nat} (h : fld w 0 2 ≠ 1) : HintFree (decodeFields w) := by
  have hlen : lengthOf w ≠ 4 := by
    rw [lengthOf, if_neg h]
    split_ifs <;> simp
  unfold decodeFields
  rw [if_neg hlen]
  refine hintFree_ite (decodeCompact_hintFree _) (hintFree_ite rfl ?_)
  refine hintFree_ite (decodeBase_hintFree_of_preceded (.inr rfl) _) ?_
  split
  next p hp => exact decodeBase_hintFree_of_preceded (.inl fun hnone => decodePre_ne_none _ (hnone ▸ hp)) _
  next => rfl

/-- The first word of a hint gives the length of 4 bytes, so no other word stands before it. -/
theorem decode_hint_length {w : Nat} {x : BitVec 24} (h : decode w = some (.hint x)) : w % 4 = 1 := by
  by_contra hne
  have hfld : fld w 0 2 ≠ 1 := by simpa [fld] using hne
  have hfree := decodeFields_hintFree hfld
  rw [(decode_eq_some_iff.1 h).1] at hfree
  exact not_hintFree_hint x hfree

/-- Settles O3: an issued hint only moves its thread on; and the words and parcels of R75 decode to hints, which take no word before them. -/
theorem hintsOnlyAdvance : Obligations.HintsOnlyAdvance :=
  ⟨fun _ _ h => ⟨fun x => issue_done_runs h (.hint x), fun x => issue_done_runs h (.cHint x)⟩,
    fun _ => decode_hint, fun _ => decode_cHint, fun _ _ => decode_hint_length⟩

end
end Sys2Proof.Machine
end

section
/-! PROOFS. The integer instructions on general registers (R120, R121): the bits that CLZ, CTZ and POPC speak of, the comparisons as
numbers, the edge cases of division, and that each instruction completes with its value. -/

namespace Sys2Proof.Machine
open Sys2Proof

noncomputable section

/-! ### The bits of a pattern -/

@[simp] theorem countLeadingZeros_zero (n : Nat) : countLeadingZeros n 0 = n := by simp [countLeadingZeros]

/-- The leading zeros of a pattern end above its highest one bit. -/
theorem countLeadingZeros_eq {n w : Nat} (h0 : w ≠ 0) (hw : w < 2 ^ n) : countLeadingZeros n w = n - 1 - w.log2 := by
  simp [countLeadingZeros, Nat.mod_eq_of_lt hw, h0]

/-- Read from the top of the pattern, the first bit after the leading zeros is one and every bit before it is zero. -/
theorem countLeadingZeros_highest {n w : Nat} (h0 : w ≠ 0) (hw : w < 2 ^ n) :
    countLeadingZeros n w < n ∧ w.testBit (n - 1 - countLeadingZeros n w) = true
      ∧ ∀ k, n - 1 - countLeadingZeros n w < k → w.testBit k = false := by
  have hlog : w.log2 < n := (Nat.log2_lt h0).2 hw
  have htop : n - 1 - countLeadingZeros n w = w.log2 := by rw [countLeadingZeros_eq h0 hw]; omega
  rw [htop]
  refine ⟨by rw [countLeadingZeros_eq h0 hw]; omega, Nat.testBit_log2 h0, fun k hk => ?_⟩
  exact Nat.testBit_lt_two_pow ((Nat.log2_lt h0).1 hk)

@[simp] theorem countTrailingZeros_zero (n : Nat) : countTrailingZeros n 0 = n := by
  induction n with
  | zero => rfl
  | succ n ih => simp [countTrailingZeros, ih, Nat.add_comm]

theorem countTrailingZeros_of_odd {w : Nat} (n : Nat) (h : w % 2 = 1) : countTrailingZeros (n + 1) w = 0 := by
  simp [countTrailingZeros, h]

theorem countTrailingZeros_of_even {w : Nat} (n : Nat) (h : w % 2 = 0) :
    countTrailingZeros (n + 1) w = countTrailingZeros n (w / 2) + 1 := by
  simp [countTrailingZeros, h, Nat.add_comm]

/-- The first bit after the trailing zeros is one, and every bit before it is zero. -/
theorem countTrailingZeros_lowest {n w : Nat} (h0 : w ≠ 0) (hw : w < 2 ^ n) :
    countTrailingZeros n w < n ∧ w.testBit (countTrailingZeros n w) = true
      ∧ ∀ k, k < countTrailingZeros n w → w.testBit k = false := by
  induction n generalizing w with
  | zero => omega
  | succ n ih =>
    rcases Nat.mod_two_eq_zero_or_one w with heven | hodd
    · obtain ⟨hlt, hone, hbelow⟩ := ih (w := w / 2) (by omega) (by omega)
      rw [countTrailingZeros_of_even n heven]
      refine ⟨by omega, by rwa [Nat.testBit_add_one], fun k hk => ?_⟩
      cases k with
      | zero => simp [heven]
      | succ k => rw [Nat.testBit_add_one]; exact hbelow k (by omega)
    · rw [countTrailingZeros_of_odd n hodd]
      exact ⟨by omega, by simp [hodd], fun k hk => absurd hk (Nat.not_lt_zero k)⟩

/-- The count of R120 is that of the places below `n` whose bit is one. -/
theorem popCount_eq_countP (n w : Nat) : popCount n w = (List.range n).countP fun k => w.testBit k := by
  induction n generalizing w with
  | zero => rfl
  | succ n ih =>
    have hrest : (fun k => w.testBit k) ∘ Nat.succ = fun k => (w / 2).testBit k := funext (Nat.testBit_succ w)
    have hlow : w % 2 = if w.testBit 0 = true then 1 else 0 := by
      rcases Nat.mod_two_eq_zero_or_one w with h | h <;> simp [h]
    rw [popCount, ih, List.range_succ_eq_map, List.countP_cons, List.countP_map, hrest, ← hlow, Nat.add_comm]

/-! ### Comparisons as numbers -/

theorem boolWord_slt (x y : Word) : boolWord (x.slt y) = if x.toInt < y.toInt then 1 else 0 := by
  simp [boolWord, BitVec.slt_iff_toInt_lt]

theorem boolWord_ult (x y : Word) : boolWord (x.ult y) = if x.toNat < y.toNat then 1 else 0 := by
  simp [boolWord, BitVec.ult_eq_decide]

theorem minS_eq (x y : Word) : minS x y = if x.toInt ≤ y.toInt then x else y := by
  simp only [minS, BitVec.slt_iff_toInt_lt, ← not_le, ite_not]

theorem minU_eq (x y : Word) : minU x y = if x.toNat ≤ y.toNat then x else y := by
  simp only [minU, BitVec.ult_eq_decide, decide_eq_true_eq, ← not_le, ite_not]

/-- Two words with the same signed value are equal, so it does not matter which of them MAX gives. -/
theorem maxS_eq (x y : Word) : maxS x y = if x.toInt ≤ y.toInt then y else x := by
  rcases lt_trichotomy x.toInt y.toInt with h | h | h
  · simp [maxS, BitVec.slt_iff_toInt_lt, h, h.le]
  · simp [maxS, BitVec.toInt_inj.1 h]
  · simp [maxS, BitVec.slt_iff_toInt_lt, h.not_gt, h.not_ge]

theorem maxU_eq (x y : Word) : maxU x y = if x.toNat ≤ y.toNat then y else x := by
  rcases lt_trichotomy x.toNat y.toNat with h | h | h
  · simp [maxU, BitVec.ult_eq_decide, h, h.le]
  · simp [maxU, BitVec.toNat_inj.1 h]
  · simp [maxU, BitVec.ult_eq_decide, h.not_gt, h.not_ge]

/-! ### The edge cases of division -/

theorem divS_of_zero {x y : Word} (h : y = 0) : divS x y = 0xFFFFFFFFFFFFFFFF := if_pos h
theorem divU_of_zero {x y : Word} (h : y = 0) : divU x y = 0xFFFFFFFFFFFFFFFF := if_pos h
theorem remS_of_zero {x y : Word} (h : y = 0) : remS x y = x := if_pos h
theorem remU_of_zero {x y : Word} (h : y = 0) : remU x y = x := if_pos h

theorem divS_min_neg_one {x y : Word} (hx : x = 0x8000000000000000) (hy : y = 0xFFFFFFFFFFFFFFFF) :
    divS x y = 0x8000000000000000 := by
  subst hx hy
  decide

theorem remS_min_neg_one {x y : Word} (hx : x = 0x8000000000000000) (hy : y = 0xFFFFFFFFFFFFFFFF) : remS x y = 0 := by
  subst hx hy
  decide

/-! ### Completion -/

section
variable {s : State} {t : Thread} {srcs : List Reg} {b a d : Reg}

/-- An instruction that computes a value and finds nothing to wait for completes with that value, in whatever form it is written. -/
theorem yields_of_compute {i : Instr} {v : Thread → Word} {w : Word} (h : Issues s t srcs [d])
    (hexec : exec i s = compute i srcs d s v) (hv : v t = w) : Yields s t srcs d i w := by
  rw [Yields, hexec, compute_runs h, hv]

theorem yields_clz (h : Issues s t [a] [d]) :
    Yields s t [a] d (.clz a d) (BitVec.ofNat 64 (countLeadingZeros 64 (t.src a).toNat)) :=
  yields_of_compute h (exec_clz s a d) rfl

theorem yields_ctz (h : Issues s t [a] [d]) :
    Yields s t [a] d (.ctz a d) (BitVec.ofNat 64 (countTrailingZeros 64 (t.src a).toNat)) :=
  yields_of_compute h (exec_ctz s a d) rfl

theorem yields_popc (h : Issues s t [a] [d]) :
    Yields s t [a] d (.popc a d) (BitVec.ofNat 64 ((List.range 64).countP fun k => (t.src a).getLsbD k)) :=
  yields_of_compute h (exec_popc s a d) (by simp only [popCount_eq_countP, BitVec.testBit_toNat])

/-- CLZ names the place of the highest one bit. -/
theorem clz_names_highest (h : Issues s t [a] [d]) :
    ∃ n, Yields s t [a] d (.clz a d) (BitVec.ofNat 64 n) ∧ (t.src a = 0 → n = 64)
      ∧ (t.src a ≠ 0 → n < 64 ∧ (t.src a).getLsbD (63 - n) = true ∧ ∀ k, 63 - n < k → (t.src a).getLsbD k = false) := by
  refine ⟨_, yields_clz h, fun h0 => ?_, fun h0 => ?_⟩
  · rw [h0]; exact countLeadingZeros_zero 64
  · exact countLeadingZeros_highest (fun hz => h0 (BitVec.eq_of_toNat_eq hz)) (t.src a).isLt

/-- CTZ names the place of the lowest one bit. -/
theorem ctz_names_lowest (h : Issues s t [a] [d]) :
    ∃ n, Yields s t [a] d (.ctz a d) (BitVec.ofNat 64 n) ∧ (t.src a = 0 → n = 64)
      ∧ (t.src a ≠ 0 → n < 64 ∧ (t.src a).getLsbD n = true ∧ ∀ k, k < n → (t.src a).getLsbD k = false) := by
  refine ⟨_, yields_ctz h, fun h0 => ?_, fun h0 => ?_⟩
  · rw [h0]; exact countTrailingZeros_zero 64
  · exact countTrailingZeros_lowest (fun hz => h0 (BitVec.eq_of_toNat_eq hz)) (t.src a).isLt

/-- The edge cases of R121, and that each form of division completes. -/
theorem division_never_traps (h : Issues s t [a, b] [d]) :
    (t.src b = 0 → Yields s t [a, b] d (.div b a d) 0xFFFFFFFFFFFFFFFF ∧ Yields s t [a, b] d (.rem b a d) (t.src a)
      ∧ Yields s t [a, b] d (.divw b a d) 0xFFFFFFFFFFFFFFFF ∧ Yields s t [a, b] d (.remw b a d) (t.src a))
    ∧ (t.src a = 0x8000000000000000 → t.src b = 0xFFFFFFFFFFFFFFFF →
      Yields s t [a, b] d (.div b a d) 0x8000000000000000 ∧ Yields s t [a, b] d (.rem b a d) 0)
    ∧ ∀ i ∈ [Instr.div b a d, .divw b a d, .rem b a d, .remw b a d], ∃ v, Yields s t [a, b] d i v := by
  refine ⟨fun hb => ⟨?_, ?_, ?_, ?_⟩, fun ha hb => ⟨?_, ?_⟩, ?_⟩
  · exact yields_of_compute h (exec_div s b a d) (divS_of_zero hb)
  · exact yields_of_compute h (exec_rem s b a d) (remS_of_zero hb)
  · exact yields_of_compute h (exec_divw s b a d) (divU_of_zero hb)
  · exact yields_of_compute h (exec_remw s b a d) (remU_of_zero hb)
  · exact yields_of_compute h (exec_div s b a d) (divS_min_neg_one ha hb)
  · exact yields_of_compute h (exec_rem s b a d) (remS_min_neg_one ha hb)
  · simp only [List.forall_mem_cons, List.not_mem_nil, false_imp_iff, implies_true, and_true]
    exact ⟨⟨_, yields_of_compute h (exec_div s b a d) rfl⟩, ⟨_, yields_of_compute h (exec_divw s b a d) rfl⟩,
      ⟨_, yields_of_compute h (exec_rem s b a d) rfl⟩, ⟨_, yields_of_compute h (exec_remw s b a d) rfl⟩⟩

end

/-- Settles O1: each instruction computes its value from the registers as they stand at the issue; the table's comparisons and counts are
the model's, and the edge cases of division are values of its quotient and remainder. -/
theorem integerRegisterResults : Obligations.IntegerRegisterResults := by
  refine ⟨fun s t b a d h => ?_, fun s t a d h => ⟨clz_names_highest h, ctz_names_lowest h, yields_popc h⟩,
    fun s t b a d h => division_never_traps h⟩
  simp only [List.forall_mem_cons, List.not_mem_nil, false_imp_iff, implies_true, and_true]
  exact ⟨yields_of_compute h (exec_add s b a d) rfl, yields_of_compute h (exec_sub s b a d) rfl,
    yields_of_compute h (exec_mul s b a d) rfl, yields_of_compute h (exec_mulh s b a d) rfl,
    yields_of_compute h (exec_mulhw s b a d) rfl, yields_of_compute h (exec_div s b a d) rfl,
    yields_of_compute h (exec_divw s b a d) rfl, yields_of_compute h (exec_rem s b a d) rfl,
    yields_of_compute h (exec_remw s b a d) rfl,
    yields_of_compute h (exec_and s b a d) rfl, yields_of_compute h (exec_or s b a d) rfl,
    yields_of_compute h (exec_xor s b a d) rfl, yields_of_compute h (exec_shl s b a d) rfl,
    yields_of_compute h (exec_shr s b a d) rfl, yields_of_compute h (exec_sar s b a d) rfl,
    yields_of_compute h (exec_slt s b a d) (boolWord_slt _ _), yields_of_compute h (exec_sltw s b a d) (boolWord_ult _ _),
    yields_of_compute h (exec_min s b a d) (minS_eq _ _), yields_of_compute h (exec_max s b a d) (maxS_eq _ _),
    yields_of_compute h (exec_minw s b a d) (minU_eq _ _), yields_of_compute h (exec_maxw s b a d) (maxU_eq _ _)⟩

end
end Sys2Proof.Machine
end

section
/-! PROOFS. The double trap (R439): what a trap in supervisor mode leaves in the thread, in its frame block and in the mailbox; a refused
ERET (R446) and a fault on fetching (R443) as such traps; and the half performed store that the statement about the fetch leaves out. -/

namespace Sys2Proof.Machine
open Sys2Proof

/-! ### Bytes and the numbers they hold -/

@[simp] theorem bytesLE_length (n w : Nat) : (bytesLE n w).length = n := by
  induction n generalizing w with
  | zero => rfl
  | succ n ih => simp [bytesLE, ih]

theorem ofBytesLE_bytesLE (n w : Nat) : ofBytesLE (bytesLE n w) = w % 2 ^ (8 * n) := by
  induction n generalizing w with
  | zero => simp [bytesLE, ofBytesLE, Nat.mod_one]
  | succ n ih =>
    have hpow : 2 ^ (8 * (n + 1)) = 256 * 2 ^ (8 * n) := by rw [Nat.mul_succ, Nat.pow_add, Nat.mul_comm]
    rw [bytesLE, ofBytesLE, ih, hpow, Nat.mod_mul, BitVec.toNat_ofNat, Nat.mod_eq_of_lt (Nat.mod_lt w (by decide))]

namespace Cells
variable {α : Type} (d : α)

theorem getRange_congr {m m' : Cells α} {a n : Nat} (h : ∀ k, a ≤ k → k < a + n → get d m k = get d m' k) :
    getRange d m a n = getRange d m' a n := by
  induction n generalizing a with
  | zero => rfl
  | succ n ih => rw [getRange, getRange, h a (by omega) (by omega), ih fun k hk hk' => h k (by omega) (by omega)]

variable [DecidableEq α]

theorem setRange_append (m : Cells α) (a : Nat) (xs ys : List α) :
    setRange d m a (xs ++ ys) = setRange d (setRange d m a xs) (a + xs.length) ys := by
  induction xs generalizing m a with
  | nil => rfl
  | cons x xs ih => rw [List.cons_append, setRange, ih, setRange, List.length_cons, Nat.add_right_comm, Nat.add_assoc]

theorem getRange_setRange_same (m : Cells α) (a : Nat) (vs : List α) : getRange d (setRange d m a vs) a vs.length = vs := by
  induction vs generalizing m a with
  | nil => rfl
  | cons v vs ih =>
    rw [List.length_cons, getRange, setRange, ih, get_setRange_other d _ _ _ _ (.inl (Nat.lt_succ_self a)), get_set_same]

end Cells

namespace Memory

theorem readN_writeBytes_other (m : Memory) {a b n : Nat} (bs : List (BitVec 8)) (h : a + n ≤ b ∨ b + bs.length ≤ a) :
    (m.writeBytes b bs).readN a n = m.readN a n :=
  congrArg ofBytesLE (Cells.getRange_congr _ fun k hk hk' => read_writeBytes_other m b k bs (by omega))

theorem readN_writeBytes_same (m : Memory) (a : Nat) (bs : List (BitVec 8)) :
    (m.writeBytes a bs).readN a bs.length = ofBytesLE bs :=
  congrArg ofBytesLE (Cells.getRange_setRange_same _ m a bs)

theorem writeBytes_append (m : Memory) (a : Nat) (xs ys : List (BitVec 8)) :
    m.writeBytes a (xs ++ ys) = (m.writeBytes a xs).writeBytes (a + xs.length) ys :=
  Cells.setRange_append _ m a xs ys

theorem readN_writeN_same (m : Memory) (a n v : Nat) : (m.writeN a n v).readN a n = v % 2 ^ (8 * n) := by
  have h := readN_writeBytes_same m a (bytesLE n v)
  rwa [bytesLE_length, ofBytesLE_bytesLE] at h

theorem readN_writeN_other (m : Memory) {a b n k : Nat} (v : Nat) (h : a + n ≤ b ∨ b + k ≤ a) :
    (m.writeN b k v).readN a n = m.readN a n :=
  readN_writeBytes_other m _ (by rwa [bytesLE_length])

/-- A number that begins a run of bytes reads back, whatever follows it. -/
theorem readN_writeBytes_head (m : Memory) (a n v : Nat) (bs : List (BitVec 8)) :
    (m.writeBytes a (bytesLE n v ++ bs)).readN a n = v % 2 ^ (8 * n) := by
  rw [writeBytes_append, readN_writeBytes_other _ _ (.inl (by rw [bytesLE_length])), ← readN_writeN_same m a n v]
  rfl

end Memory

/-! ### An event in the rings of the mailbox (R466) -/

/-- An event record of R466. -/
def eventRecord (s : State) (kind arg : Nat) : List (BitVec 8) :=
  bytesLE 8 kind ++ bytesLE 8 arg ++ bytesLE 8 s.time.toNat ++ bytesLE 8 0

theorem eventRecord_length (s : State) (kind arg : Nat) : (eventRecord s kind arg).length = 32 := by simp [eventRecord]

/-- Memory with an event record in the ring of the channel at `b`, and the count after it. -/
def putEvent (m : Memory) (b : Nat) (count : BitVec 64) (bs : List (BitVec 8)) : Memory :=
  (m.writeBytes (b + 0x100 + 32 * (count.toNat % 32)) bs).writeN (b + 0x80) 8 (count.toNat + 1)

theorem event_mem (s : State) (kind arg : Nat) :
    (s.event kind arg).mem = putEvent (putEvent s.mem (s.mailbox false) s.evCount (eventRecord s kind arg)) (s.mailbox true) s.evCount
      (eventRecord s kind arg) := rfl

theorem mailbox_true (s : State) : s.mailbox true = s.mailbox false + 0x4000 := by simp [State.mailbox]

section
variable (m : Memory) (b : Nat) (count : BitVec 64)

/-- The records and the count of a channel lie in its first 0x500 bytes. -/
theorem putEvent_readN_other {a n : Nat} {bs : List (BitVec 8)} (hbs : bs.length = 32) (h : a + n ≤ b ∨ b + 0x500 ≤ a) :
    (putEvent m b count bs).readN a n = m.readN a n := by
  rw [putEvent, Memory.readN_writeN_other _ _ (by omega), Memory.readN_writeBytes_other _ _ (by omega)]

/-- A channel holds the count and the record of an event appended to it. -/
theorem putEvent_appended (s : State) (kind arg : Nat) :
    let m' := putEvent m b count (eventRecord s kind arg)
    let r := b + 0x100 + 32 * (count.toNat % 32)
    m'.readN (b + 0x80) 8 = (count + 1).toNat ∧ m'.readN r 8 = kind % 2 ^ 64 ∧ m'.readN (r + 8) 8 = arg % 2 ^ 64 := by
  intro m' r
  refine ⟨?_, ?_, ?_⟩
  · rw [BitVec.toNat_add]
    exact Memory.readN_writeN_same _ _ 8 _
  · refine (Memory.readN_writeN_other _ _ (by omega)).trans ?_
    rw [eventRecord, List.append_assoc, List.append_assoc]
    exact Memory.readN_writeBytes_head m r 8 kind _
  · refine (Memory.readN_writeN_other _ _ (by omega)).trans ?_
    rw [eventRecord, List.append_assoc, List.append_assoc, Memory.writeBytes_append, bytesLE_length]
    exact Memory.readN_writeBytes_head _ (r + 8) 8 arg _

end

theorem event_readN_other (s : State) (kind arg : Nat) {a n : Nat} (h : a + n ≤ s.mailbox false ∨ s.mailbox true + 0x500 ≤ a) :
    (s.event kind arg).mem.readN a n = s.mem.readN a n := by
  rw [mailbox_true] at h
  rw [event_mem, putEvent_readN_other _ _ _ (eventRecord_length s kind arg) (by rw [mailbox_true]; omega),
    putEvent_readN_other _ _ _ (eventRecord_length s kind arg) (by omega)]

/-- Both channels hold the event and the count after it. -/
theorem event_appended (s : State) (kind arg : Nat) :
    ∀ b ∈ [s.mailbox false, s.mailbox true], let r := b + 0x100 + 32 * (s.evCount.toNat % 32)
      (s.event kind arg).mem.readN (b + 0x80) 8 = (s.evCount + 1).toNat ∧ (s.event kind arg).mem.readN r 8 = kind % 2 ^ 64
        ∧ (s.event kind arg).mem.readN (r + 8) 8 = arg % 2 ^ 64 := by
  have hlater : ∀ a n, a + n ≤ s.mailbox false + 0x500 → (s.event kind arg).mem.readN a n
      = (putEvent s.mem (s.mailbox false) s.evCount (eventRecord s kind arg)).readN a n := fun a n h =>
    putEvent_readN_other _ _ _ (eventRecord_length s kind arg) (.inl (by rw [mailbox_true]; omega))
  simp only [List.forall_mem_cons, List.not_mem_nil, false_imp_iff, implies_true, and_true]
  refine ⟨?_, putEvent_appended _ _ _ s kind arg⟩
  rw [hlater _ _ (by omega), hlater _ _ (by omega), hlater _ _ (by omega)]
  exact putEvent_appended _ _ _ s kind arg

theorem mailbox_congr {s w : State} (h : w.hdmbase = s.hdmbase) (b : Bool) : w.mailbox b = s.mailbox b := by
  rw [State.mailbox, h, State.mailbox]

theorem report_mailbox (s : State) (r : Report) (b : Bool) : (s.report r).mailbox b = s.mailbox b := mailbox_congr rfl b

theorem haltReport_readN_other (s : State) (k : Nat) {a n : Nat} (h : a + n ≤ s.mailbox false ∨ s.mailbox true + 0x500 ≤ a) :
    (s.haltReport k).mem.readN a n = s.mem.readN a n := by
  rw [State.haltReport, event_readN_other _ _ _ (by rwa [report_mailbox, report_mailbox])]
  rfl

/-- The report that a thread has halted is an event of kind 1 in both channels (R466). -/
theorem haltReport_appended (s : State) (k : Nat) :
    ∀ b ∈ [s.mailbox false, s.mailbox true], let r := b + 0x100 + 32 * (s.evCount.toNat % 32)
      (s.haltReport k).mem.readN (b + 0x80) 8 = (s.evCount + 1).toNat ∧ (s.haltReport k).mem.readN r 8 = 1
        ∧ (s.haltReport k).mem.readN (r + 8) 8 = k % 2 ^ 64 := by
  have h := event_appended (s.report (.halted k)) 1 k
  rwa [report_mailbox, report_mailbox] at h

noncomputable section

/-! ### The frame block of a double trap -/

theorem writeFrame_cause (m : Memory) (base : Nat) (t : Thread) (f : FrameInfo) :
    (writeFrame m base t f).readN base 8 = f.cause % 2 ^ 64 := by
  rw [writeFrame, Memory.readN_writeBytes_other _ _ (.inl (by omega)), Memory.readN_writeBytes_other _ _ (.inl (by omega)), frameFields]
  simp only [List.append_assoc]
  exact Memory.readN_writeBytes_head _ base 8 f.cause _

theorem encBool_le (b : Bool) : encBool b ≤ 1 := by cases b <;> decide

/-- DBL is bit 14 of the CAUSE word. -/
theorem causeWord_dbl (tr : Trap) (v pm skip nest dbl lost : Bool) :
    bitAt (causeWord tr v pm skip nest dbl lost % 2 ^ 64) 14 = dbl := by
  have hv := encBool_le v
  have hpm := encBool_le pm
  have hskip := encBool_le skip
  have hnest := encBool_le nest
  have hlost := encBool_le lost
  have hbit : causeWord tr v pm skip nest dbl lost % 2 ^ 64 / 2 ^ 14 % 2 = encBool dbl := by
    have hdbl := encBool_le dbl
    simp only [causeWord]
    omega
  rw [bitAt, hbit]
  cases dbl <;> rfl

/-! ### Entering the halted state -/

/-- Tokens that become due change the token counts alone. -/
theorem foldl_putTok_eq (l : List Nat) (t : Thread) :
    l.foldl Thread.putTok t = { t with tok := (l.foldl Thread.putTok t).tok, tokRes := (l.foldl Thread.putTok t).tokRes } := by
  induction l generalizing t with
  | nil => rfl
  | cons k l ih => exact ih (t.putTok k)

theorem foldl_owed_eq (l : List OwedStores) (t : Thread) :
    ∃ tok tokRes, l.foldl (fun u (o : OwedStores) => o.toks.foldl Thread.putTok u) t = { t with tok := tok, tokRes := tokRes } := by
  induction l generalizing t with
  | nil => exact ⟨_, _, rfl⟩
  | cons o l ih =>
    obtain ⟨tok, tokRes, h⟩ := ih (o.toks.foldl Thread.putTok t)
    exact ⟨tok, tokRes, by rw [List.foldl_cons, h, foldl_putTok_eq]⟩

/-- What performing every owed and held store does to the thread. -/
theorem flushAll_thread (s : State) (t : Thread) :
    ∃ tok tokRes, (flushAll s t).2 = { t with owed := [], tok := tok, tokRes := tokRes, cbuf := [], cvia := [] } := by
  obtain ⟨tok, tokRes, h⟩ := foldl_owed_eq t.owed { t with owed := [] }
  exact ⟨tok, tokRes, by rw [flushAll, flushOwed, h]⟩

/-- The state of a double trap before its report: the frame block is written with DBL, and the thread stands halted (R439). -/
structure DoubleTrapped (s w : State) (t u : Thread) (pc : BitVec 64) : Prop where
  thread : w.thread? t.slot = some u
  run : u.run = .halted
  pc : u.pc = pc
  sup : u.sup = true
  regs : u.g = t.g
  dbl : bitAt (w.mem.readN (s.frameBase t) 8) 14 = true
  others : w = { s with mem := w.mem, threads := w.threads }

/-- A trap in supervisor mode comes to the halted state and its report, and to no handler (R439). -/
theorem enterTrap_sup {s : State} {t : Thread} (here : s.thread? t.slot = some t) (h : t.sup = true) (tr : Trap) (v : Bool)
    (pc epc : BitVec 64) (skip : Bool) :
    ∃ w u, enterTrap s t tr v pc epc skip = w.haltReport t.slot ∧ DoubleTrapped s w t u pc := by
  obtain ⟨tok, tokRes, hfl⟩ := flushAll_thread s t
  have hsup : (flushAll s t).2.sup = true := hfl ▸ h
  have hslot : (flushAll s t).2.slot = t.slot := hfl ▸ rfl
  have hregs : (flushAll s t).2.g = t.g := hfl ▸ rfl
  let cause := causeWord tr v true skip t.nest.isSome true false
  let m := writeFrame (flushAll s t).1.mem (s.frameBase t) (flushAll s t).2 ⟨cause, pc, epc, tr.addr, tr.detail⟩
  let u : Thread := { (flushAll s t).2.stopped with run := .halted, pc := pc }
  have hu : u.slot = t.slot := hslot
  have hplaced : (({ s with mem := m } : State).thread? u.slot).isSome := by rw [hu]; exact Option.isSome_of_eq_some here
  refine ⟨({ s with mem := m } : State).setThread u, u, ?_, ?_, rfl, rfl, hsup, hregs, ?_, rfl⟩
  · simp only [enterTrap, hsup, if_true, hslot, h, u, m, cause]
  · rw [← hu]
    exact State.thread?_setThread_same _ u hplaced
  · rw [State.setThread_mem, writeFrame_cause, causeWord_dbl]

/-- R439: the double trap of a placed thread, as the first clause of O18 has it. -/
theorem enterTrap_sup_halts {s : State} {t : Thread} (here : s.thread? t.slot = some t) (hsup : t.sup = true) (tr : Trap) (v : Bool)
    (pc epc : BitVec 64) (skip : Bool) :
    let s' := enterTrap s t tr v pc epc skip
    let f := s.frameBase t
    ∃ u, s'.thread? t.slot = some u ∧ u.run = .halted ∧ u.pc = pc ∧ u.sup = true ∧ (∀ r, u.rd r = t.rd r)
      ∧ s'.reports = s.reports ++ [.halted t.slot] ∧ s'.evCount = s.evCount + 1 ∧ s'.msix = true
      ∧ (f + 8 ≤ s.mailbox false ∨ s.mailbox true + 0x500 ≤ f → bitAt (s'.mem.readN f 8) 14 = true)
      ∧ ∀ b ∈ [s.mailbox false, s.mailbox true], let r := b + 0x100 + 32 * (s.evCount.toNat % 32)
        s'.mem.readN (b + 0x80) 8 = (s.evCount + 1).toNat ∧ s'.mem.readN r 8 = 1 ∧ s'.mem.readN (r + 8) 8 = t.slot % 2 ^ 64 := by
  obtain ⟨w, u, heq, hthread, hrun, hpc, hmode, hregs, hdbl, hothers⟩ := enterTrap_sup here hsup tr v pc epc skip
  have hreports : w.reports = s.reports := hothers ▸ rfl
  have hcount : w.evCount = s.evCount := hothers ▸ rfl
  have hbox : ∀ b, w.mailbox b = s.mailbox b := fun b => mailbox_congr (hothers ▸ rfl) b
  simp only [heq]
  refine ⟨u, hthread, hrun, hpc, hmode, Thread.rd_congr hregs, ?_, ?_, rfl, fun hclear => ?_, ?_⟩
  · rw [← hreports]; rfl
  · rw [← hcount]; rfl
  · rw [haltReport_readN_other w _ (by rwa [hbox, hbox]), hdbl]
  · rw [← hbox, ← hbox, ← hcount]
    exact haltReport_appended w t.slot

/-! ### A refused ERET -/

/-- With no entry left, a vector side that may stop has no command of a CHRUN to place. -/
theorem cutRuns_of_empty {s : State} {t : Thread} (hq : t.queue = []) (hc : canStop s t = true) : cutRuns s t = (s, t) := by
  have hruns : ∀ o ∈ s.chrunsOf t, o.unplaced.isEmpty = true := by
    have hc' : runsCanStop s t = true := by
      simp only [canStop, Bool.and_eq_true] at hc
      obtain ⟨⟨-, hc'⟩, -⟩ := hc
      exact hc'
    simpa [runsCanStop, hq] using hc'
  unfold cutRuns
  generalize s.chrunsOf t = l at hruns
  induction l with
  | nil => rfl
  | cons o l ih =>
    rw [List.foldl_cons, if_pos (hruns o List.mem_cons_self)]
    exact ih fun o' ho' => hruns o' (List.mem_cons_of_mem _ ho')

/-- With no entry left, the vector side stops once the stores that its stream holds are performed. -/
theorem stopVector_of_empty {s : State} {t : Thread} (hq : t.queue = []) (hc : canStop s t = true) :
    stopVector s t = ({ s with mem := performV s.mem t.vbuf }, { t with vbuf := [] }) := by
  have hflush : flushV s t (fun _ => true) = ({ s with mem := performV s.mem t.vbuf }, { t with vbuf := [] }) := by
    simp [flushV]
  simp only [stopVector, cutRuns_of_empty hq hc, hflush, hq, commitDone, List.foldl_nil, List.map_nil]

theorem trapped_of_empty {s : State} {t : Thread} (hq : t.queue = []) (hc : canStop s t = true) (tr : Trap) (pc epc : BitVec 64) :
    trapped s t tr pc epc = enterTrap { s with mem := performV s.mem t.vbuf } { t with vbuf := [] } tr false pc epc false := by
  rw [trapped, stopVector_of_empty hq hc]
  simp only [hq, List.head?_nil, Option.bind_none]

theorem raiseAt_of_canStop {s : State} {t : Thread} (hc : canStop s t = true) (tr : Trap) (pc epc : BitVec 64) (again : Out) :
    raiseAt s t tr pc epc again = .next (trapped s t tr pc epc) := by
  simp [raiseAt, hc]

/-- R446, R439: an ERET whose frame block is not as it must be, as the second clause of O18 has it. -/
theorem exec_eret_refused {s : State} {t : Thread} (h : Issues s t [] []) (hq : t.queue = []) (hsup : t.sup = true)
    (hc : canStop s t = true) (hbad : frameOk ((performOwed s.mem t.cbuf).readBytes (s.frameBase t) 0x4000) = false) :
    exec .eret s
      = .next (enterTrap { s with mem := performV s.mem t.vbuf } { t with vbuf := [] } { code := 1 } false t.pc t.pc false) := by
  rw [exec_eret, execEret, issue_runs h, afterVcp_empty hq, ← trapped_of_empty hq hc, ← raiseAt_of_canStop hc _ _ _ (wait s t .eret)]
  simp [hsup, hbad, illegal, scalarTrap]

/-! ### A fault on fetching -/

section
variable {s s1 : State} {t : Thread} {tr : Trap}

theorem advance_thread? (s : State) (c k : Nat) : (advance s c).thread? k = s.thread? k := by
  unfold advance
  split <;> rfl

/-- In its turn a thread does what `k` says, in the thread cycle in which its facet and itself are free. -/
theorem gated_runs (h : MayServe s t) {k : State → Out} {u : State} (hk : k (advance (turnBase s) (issueCycle s t)) = .next u) :
    gated t.slot (turnBase s) k = .next (closeIssue t.slot (advance (turnBase s) (issueCycle s t)) u) := by
  have hthread : (turnBase s).thread? t.slot = some t := h.here
  have hcycle : max (turnBase s).cyc (max ((turnBase s).facet t.facet).nextIssue t.readyAt) = issueCycle s t := rfl
  simp only [gated, hthread, hcycle, h.active, h.noTile, h.first, Bool.not_true, Bool.or_self, Bool.false_eq_true, if_false, hk]

/-- A ready thread outside a nest whose fetch fails takes the trap of the fetch at its pc (R443). -/
theorem serve_fetchFault (h : MayServe s t) (hrun : t.run = .ready) (hnest : t.nest = none)
    (hbad : fetchWord (t.who (served s t)) t.pc (served s t) = .bad tr s1) (hc : canStop s1 t = true) :
    serve false t.slot (advance (turnBase s) (issueCycle s t)) = .next (trapped s1 t tr t.pc t.pc) := by
  have hthread : (served s t).thread? t.slot = some t := (advance_thread? _ _ _).trans h.here
  have hserve : serve false t.slot (advance (turnBase s) (issueCycle s t)) = nextIssue false (served s t) t := by
    unfold served at hthread ⊢
    simp only [serve, hthread, hrun]
  rw [hserve, nextIssue, h.noTile, hnest, ← raiseAt_of_canStop hc tr t.pc t.pc (.next s1)]
  simp only [Bool.false_eq_true, if_false, fetchIssue, hbad, fetchFault]

theorem beginTurn_issue {k : Nat} (hturn : turnOf s = .issue k) : beginTurn s = turnBase s := by
  simp [beginTurn, hturn, Turn.issues, turnBase]

theorem mendFor_of_untorn (h : s.torn = none) (k : Turn) : mendFor k s = s := by
  simp [mendFor, h]

/-- R443: a fault on fetching, as the third clause of O18 has it, where no store is half performed. -/
theorem step_fetchFault (htorn : s.torn = none) (hturn : turnOf s = .issue t.slot) (h : MayServe s t) (hrun : t.run = .ready)
    (hnest : t.nest = none) (hbad : fetchWord (t.who (served s t)) t.pc (served s t) = .bad tr s1) (hc : canStop s1 t = true) :
    step s = .next (turnEnd s t (trapped s1 t tr t.pc t.pc)) := by
  have hgated := gated_runs h (serve_fetchFault h hrun hnest hbad hc)
  have hbase : (turnBase s).torn = none := htorn
  rw [step, takeTurn, beginTurn_issue hturn, mendFor_of_untorn hbase, hturn]
  simp only [doTurn, hgated]
  rfl

/-! ### A half performed store before a fetch that fails -/

/-- An odd address is a Misaligned Access at its fetch (R47). -/
theorem fetchWord_odd {va : BitVec 64} (h : va.getLsbD 0 = true) (w : Who) (s : State) :
    fetchWord w va s = .bad { code := 2, addr := va, acc := 3 } s := if_pos h

/-- A thread with an odd pc outside a nest accesses no memory in its turn. -/
theorem firstAccess_odd (here : s.thread? t.slot = some t) (hrun : t.run = .ready) (hnest : t.nest = none)
    (hodd : t.pc.getLsbD 0 = true) : firstAccess s (.issue t.slot) = none := by
  have hnext : nextInstr s t = none := by simp [nextInstr, hrun, hnest, fetchWord_odd hodd]
  simp [firstAccess, here, hnext]

theorem mend_thread? (s : State) (k : Nat) : (mend s).thread? k = s.thread? k := by
  unfold mend
  split <;> rfl

theorem mend_torn (s : State) : (mend s).torn = none := by
  unfold mend
  split
  · rfl
  · assumption

theorem mendFor_of_noAccess {k : Turn} (h : firstAccess (mend s) k = none) : mendFor k s = mend s := by
  unfold mendFor
  split
  next hnone => simp [mend, hnone]
  next => simp [h]

theorem turnBase_mend (s : State) : turnBase (mend s) = mend (turnBase s) := by
  cases h : s.torn with
  | none => simp [mend, turnBase, h]
  | some x => simp [mend, turnBase, h]

/-- The rest of a half performed store is performed before the turn of a thread whose pc is odd (R391, R400). -/
theorem step_mend_of_odd (hturn : turnOf s = .issue t.slot) (hturn' : turnOf (mend s) = .issue t.slot) (here : s.thread? t.slot = some t)
    (hrun : t.run = .ready) (hnest : t.nest = none) (hodd : t.pc.getLsbD 0 = true) : step s = step (mend s) := by
  have hthread : (mend (turnBase s)).thread? t.slot = some t := (mend_thread? _ _).trans here
  have hmend : mendFor (.issue t.slot) (turnBase s) = mend (turnBase s) :=
    mendFor_of_noAccess (firstAccess_odd hthread hrun hnest hodd)
  simp only [step, takeTurn, beginTurn_issue hturn, beginTurn_issue hturn', hturn, hturn', hmend, turnBase_mend,
    mendFor_of_untorn (mend_torn (turnBase s))]

end

/-! ### The counterexample -/

/-- A supervisor thread on slot 0 with an odd pc. -/
def oddSupThread : Thread := { bootThread with sup := true, pc := 0x10001 }

/-- That thread's turn comes, and of its store of two bytes at 0x5000 the first is performed and the second is not. -/
def halfStored : State :=
  { State.reset.setPart 0 bootPart with
    threads := [oddSupThread], mem := [(0x5000, 5)], torn := some ⟨0, .c, 0x5000, 2, [(0x5001, 7)]⟩, agenda := [.issue 0] }

/-- Tearing a store that the thread holds leaves that state (R400). -/
theorem tearStore_eq_halfStored :
    let w : Thread := { oddSupThread with cbuf := [(0x5000, [5, 7])] }
    tearStore { halfStored with threads := [w], mem := [], torn := none } w .c 0 1 = halfStored := by
  decide +kernel

/-- The state that a fetch fault in the turn of that thread leads to, where the fetch sees `s`. -/
def afterOddFetch (s : State) : State :=
  turnEnd s oddSupThread
    (trapped (served s oddSupThread) oddSupThread { code := 2, addr := oddSupThread.pc, acc := 3 } oddSupThread.pc oddSupThread.pc)

theorem halfStored_mayServe : MayServe halfStored oddSupThread ∧ MayServe (mend halfStored) oddSupThread :=
  ⟨⟨rfl, rfl, rfl, by decide +kernel⟩, ⟨rfl, rfl, rfl, by decide +kernel⟩⟩

/-- The step performs the rest of the store first. -/
theorem step_halfStored : step halfStored = .next (afterOddFetch (mend halfStored)) :=
  calc step halfStored = step (mend halfStored) := step_mend_of_odd (t := oddSupThread) rfl rfl rfl rfl rfl rfl
    _ = .next (afterOddFetch (mend halfStored)) :=
      step_fetchFault rfl rfl halfStored_mayServe.2 rfl rfl (fetchWord_odd rfl _ _) rfl

/-- Refutes O18: its third clause does not ask that no store is half performed. The step performs the rest of such a store before the fetch
(R400), so the state after it is not the one that the clause gives, in which the store is half performed still. -/
theorem not_doubleTrapHalts : ¬ Obligations.DoubleTrapHalts := by
  unfold Obligations.DoubleTrapHalts
  rintro ⟨-, -, hfetch⟩
  have hclause : step halfStored = .next (afterOddFetch halfStored) :=
    hfetch halfStored _ oddSupThread _ rfl halfStored_mayServe.1 rfl rfl (fetchWord_odd rfl _ _) rfl
  have hsame : afterOddFetch (mend halfStored) = afterOddFetch halfStored :=
    Host.Outcome.next.inj (step_halfStored.symm.trans hclause)
  have htorn : (none : Option TornStore) = some ⟨0, .c, 0x5000, 2, [(0x5001, 7)]⟩ := congrArg State.torn hsame
  exact Option.some_ne_none _ htorn.symm

end
end Sys2Proof.Machine
end
